-- ==== Sys2Proof/Word.lean ====
section
/-! DEFINITION. The word types of the block (00_scope.md R15: `u8`, `u16`, `u32` are unsigned; no value is ever
interpreted as signed). Bit vectors hold only what the spec treats as bits: bytes of a frame, 16-bit sums and
lengths, the 32-bit read budget, operation words. -/

namespace Sys2Proof

/-- `u8` (00_scope.md R15). -/
abbrev Byte := BitVec 8

/-- `u16` (00_scope.md R15): length fields and checksums. -/
abbrev Half := BitVec 16

/-- `u32` (00_scope.md R15): the read budget (00_scope.md R11). -/
abbrev Budget := BitVec 32

/-- One operation word of the operation port: 16 bits, fixed length (30_encoding.md R79, R83). -/
abbrev OpWord := BitVec 16

end Sys2Proof
end

