-- ==== Sys2Proof/Config.lean ====
section
/-! DEFINITION. The parameters of one instance of the block (00_scope.md R7 to R12; 10_state.md R24). They are
plain data, an argument of the model: no constraint ties them together (00_scope.md R14). -/

namespace Sys2Proof

/-- `ADDR_MISMATCH_POLICY` (00_scope.md R12): what the reader does when the byte after a sync byte is not
`ADDR_IN`. -/
inductive AddrPolicy where
  | failFast
  | resync
deriving DecidableEq, Repr

/-- The configuration of one instance, fixed when it is made; no operation writes it (10_state.md R24). -/
structure Config where
  /-- `SYNC_OUT : u8` (00_scope.md R7). -/
  syncOut : Byte
  /-- `ADDR_OUT : u8` (00_scope.md R8). -/
  addrOut : Byte
  /-- `SYNC_IN : u8` (00_scope.md R9). -/
  syncIn : Byte
  /-- `ADDR_IN : u8` (00_scope.md R10). -/
  addrIn : Byte
  /-- `MAX_RESYNC_BYTES : u32` (00_scope.md R11), OPEN: any value is legal. -/
  maxResyncBytes : Budget
  /-- `ADDR_MISMATCH_POLICY` (00_scope.md R12), OPEN. -/
  addrPolicy : AddrPolicy
deriving DecidableEq, Repr

/-- The reference values of 00_scope.md R7 to R10 and R12. The budget has no reference value in the rules (R11);
16 is the one 95_test_vectors.md uses. DESIGN CHOICE, unsafe for a claim that rests on it (assumption 2). -/
def Config.reference : Config :=
  { syncOut := 0xA5#8
    addrOut := 0x01#8
    syncIn := 0xA6#8
    addrIn := 0x02#8
    maxResyncBytes := 16#32
    addrPolicy := .failFast }

end Sys2Proof
end

