-- ==== Sys2Proof/Machine/State.lean ====
section
/-! DEFINITION. The state record of 10_state.md (R25 to R40), the reset state (R43), and the reasons a step can
stop. -/

namespace Sys2Proof.Machine

/-- `tx_state` (10_state.md R25). -/
inductive TxState where
  | idle
  | build
deriving DecidableEq, Repr

/-- `rx_state` (10_state.md R30), in the order of its codes 0 to 9; the codes 10 to 15 are never produced and
have no constructor (93_implementation_defined.md I15; assumption 10). -/
inductive RxState where
  | idle
  | seekSync
  | seekAddr
  | hdrCmd
  | lenHi
  | lenLo
  | payload
  | chkHi
  | chkLo
  | done
deriving DecidableEq, Repr

/-- `rx_status` (10_state.md R33; 60_exceptions.md R160), in the order of its codes 0 to 8; the codes 9 to 15 are
never produced and have no constructor (93_implementation_defined.md I15; assumption 10). -/
inductive RxStatus where
  | none
  | busy
  | ok
  | noFrame
  | underrun
  | checksumMismatch
  | addrMismatch
  | lengthInvalid
  | channelFault
deriving DecidableEq, Repr

/-- The reader failures, the kinds of `raise K(info)` (00_scope.md R17(b); 60_exceptions.md R160 to R166). A
failure is a terminal state of one invocation, a next state of the machine. -/
inductive Failure where
  | noFrame
  | underrun
  | checksumMismatch
  | addrMismatch
  | lengthInvalid
  /-- carries the channel's opaque code (60_exceptions.md R166) -/
  | channelFault (code : Byte)
deriving DecidableEq, Repr

/-- The state record. Beside the spec's fields it carries two of the model's own: the instance's parameters
(assumption 1) and the operation words offered on the port (assumption 3). -/
structure State where
  /-- The instance's parameters, read as constants (10_state.md R24). The model's own field. -/
  cfg : Config
  /-- The operation words offered and not yet taken, oldest first (10_state.md R23). The model's own field. -/
  port : List OpWord
  /-- 10_state.md R25 -/
  txState : TxState
  /-- 10_state.md R26 -/
  txCmd : Byte
  /-- 10_state.md R27 -/
  txPayload : List Byte
  /-- 10_state.md R28 -/
  txFrame : List Byte
  /-- 10_state.md R28 -/
  txValid : Bool
  /-- 10_state.md R29 -/
  csumAcc : Half
  /-- 10_state.md R30 -/
  rxState : RxState
  /-- 10_state.md R33 -/
  rxStatus : RxStatus
  /-- 10_state.md R31 -/
  rxBudget : Budget
  /-- 10_state.md R32 -/
  rxSum : Half
  /-- 10_state.md R34 -/
  rxFrameValid : Bool
  /-- 10_state.md R35 -/
  rxFaultCode : Byte
  /-- 10_state.md R36 -/
  rxCmd : Byte
  /-- 10_state.md R36 -/
  rxLen : Half
  /-- 10_state.md R37 -/
  rxRemaining : Half
  /-- 10_state.md R38 -/
  rxChkHi : Byte
  /-- 10_state.md R38 -/
  rxChk : Half
  /-- 10_state.md R39 -/
  rxPayload : List Byte
  /-- 10_state.md R40 -/
  rxRaw : List Byte
deriving DecidableEq, Repr

/-- The stops that stand where a rule's stated precondition is false. No rule of the spec reaches one: each is
raised only in a state that no run from reset reaches (assumption 5). All are safe. -/
inductive Fault where
  /-- Raised by an examination with `rx_budget = 0`, which 41_response_reader.md R124 requires to be at least 1
  (10_state.md R31: "no rule subtracts from 0"). Safe: the model stops where the spec gives no effect. -/
  | examineWithoutBudget
  /-- Raised by `RX_BYTE` in `PAYLOAD` with `rx_remaining = 0`, where 41_response_reader.md R132 has it at least 1.
  Safe: the model stops where the spec gives no effect. -/
  | payloadWithoutRemaining
  /-- Raised by `TX_END` with more than 65533 payload bytes, where 40_frame_codec.md R103 has at most 65533 and a
  length that does not wrap. Safe: the model stops where the spec gives no effect. -/
  | payloadOverCapacity
deriving DecidableEq, Repr

/-- The refusals of 60_exceptions.md R170: the operation has no meaning, the block takes no step and no state
changes (00_scope.md R17(c)). All are safe: the spec itself marks the run refused for good. -/
inductive Refusal where
  /-- Raised by `exec`'s arm of an operation without a meaning; no arm of this model raises it. Safe. -/
  | notModelled (mnemonic : String)
  /-- `RESERVED_OPCODE`: raised by `step` on a word whose `OP` is not in the opcode map (30_encoding.md R82(a)).
  Safe. -/
  | reservedOpcode
  /-- `RESERVED_OPERAND`: raised by `step` on `TX_END`, `CSUM_CLR`, `RX_START` or `RX_UNDERRUN` with a nonzero
  `IMM8` (30_encoding.md R82(b)). Safe. -/
  | reservedOperand
  /-- `TX_BEGIN_WHILE_BUILDING`: raised by `TX_BEGIN` in `TX_BUILD` (40_frame_codec.md R101). Safe. -/
  | txBeginWhileBuilding
  /-- `TX_PUSH_WHILE_IDLE`: raised by `TX_PUSH` in `TX_IDLE` (40_frame_codec.md R102), also with
  a full payload (assumption 19). Safe. -/
  | txPushWhileIdle
  /-- `TX_PAYLOAD_FULL`: raised by `TX_PUSH` at the payload capacity (40_frame_codec.md R102). Safe. -/
  | txPayloadFull
  /-- `TX_END_WHILE_IDLE`: raised by `TX_END` in `TX_IDLE` (40_frame_codec.md R103). Safe. -/
  | txEndWhileIdle
  /-- `RX_START_WHILE_BUSY`: raised by `RX_START` in a reading state (41_response_reader.md R122). Safe. -/
  | rxStartWhileBusy
  /-- `RX_EVENT_NOT_READING`: raised by `RX_BYTE`, `RX_UNDERRUN` and `RX_CHFAULT` in `RX_IDLE` and `RX_DONE`
  (41_response_reader.md R123, R135, R136). Safe. -/
  | rxEventNotReading
  /-- `OUTPUT_NOT_VALID`: raised by a read of an output outside its condition (10_state.md R41), never by a step.
  Safe. -/
  | outputNotValid
deriving DecidableEq, Repr

/-- The machine right after reset, for any instance: every field as in the complete list of 10_state.md R43
(70_reset_and_hazards.md R180), nothing offered on the port. -/
def State.resetWith (cfg : Config) : State :=
  { cfg := cfg
    port := []
    txState := .idle
    txCmd := 0x00#8
    txPayload := []
    txFrame := []
    txValid := false
    csumAcc := 0x0000#16
    rxState := .idle
    rxStatus := .none
    rxBudget := 0#32
    rxSum := 0x0000#16
    rxFrameValid := false
    rxFaultCode := 0x00#8
    rxCmd := 0x00#8
    rxLen := 0x0000#16
    rxRemaining := 0x0000#16
    rxChkHi := 0x00#8
    rxChk := 0x0000#16
    rxPayload := []
    rxRaw := [] }

/-- Reset of the reference instance (10_state.md R43; assumption 2 for the parameters). -/
def State.reset : State := State.resetWith Config.reference

end Sys2Proof.Machine
end

