-- ==== Sys2Proof/Machine/Flags.lean ====
section
/-! DEFINITION. The status-like fields (10_state.md R45: there are no arithmetic condition codes): the codes of the
state and outcome registers, the reading states, and the status each failure leaves. -/

namespace Sys2Proof.Machine

/-- The 1-bit encoding of `tx_state` (10_state.md R25). -/
def TxState.code : TxState → BitVec 1
  | .idle => 0#1
  | .build => 1#1

/-- The 4-bit encoding of `rx_state` (10_state.md R30). -/
def RxState.code : RxState → BitVec 4
  | .idle => 0#4
  | .seekSync => 1#4
  | .seekAddr => 2#4
  | .hdrCmd => 3#4
  | .lenHi => 4#4
  | .lenLo => 5#4
  | .payload => 6#4
  | .chkHi => 7#4
  | .chkLo => 8#4
  | .done => 9#4

/-- The 4-bit encoding of `rx_status` (10_state.md R33; 60_exceptions.md R160). -/
def RxStatus.code : RxStatus → BitVec 4
  | .none => 0#4
  | .busy => 1#4
  | .ok => 2#4
  | .noFrame => 3#4
  | .underrun => 4#4
  | .checksumMismatch => 5#4
  | .addrMismatch => 6#4
  | .lengthInvalid => 7#4
  | .channelFault => 8#4

/-- The reading states: the reader has one outstanding one-byte request (41_response_reader.md R121; 20_memory.md
R51). -/
def RxState.isReading : RxState → Bool
  | .idle => false
  | .seekSync => true
  | .seekAddr => true
  | .hdrCmd => true
  | .lenHi => true
  | .lenLo => true
  | .payload => true
  | .chkHi => true
  | .chkLo => true
  | .done => false

/-- The outcome code a failure leaves in `rx_status` (60_exceptions.md R160). -/
def Failure.status : Failure → RxStatus
  | .noFrame => .noFrame
  | .underrun => .underrun
  | .checksumMismatch => .checksumMismatch
  | .addrMismatch => .addrMismatch
  | .lengthInvalid => .lengthInvalid
  | .channelFault _ => .channelFault

/-- What a failure leaves in `rx_fault_code`: the channel's code for `CHANNEL_FAULT`, the old value for every other
kind (60_exceptions.md R166, R167). -/
def Failure.faultCode (old : Byte) : Failure → Byte
  | .noFrame => old
  | .underrun => old
  | .checksumMismatch => old
  | .addrMismatch => old
  | .lengthInvalid => old
  | .channelFault c => c

/-- The six failure codes of `rx_status` (60_exceptions.md R160, kinds 3 to 8). -/
def RxStatus.isFailure : RxStatus → Bool
  | .none => false
  | .busy => false
  | .ok => false
  | .noFrame => true
  | .underrun => true
  | .checksumMismatch => true
  | .addrMismatch => true
  | .lengthInvalid => true
  | .channelFault => true

end Sys2Proof.Machine
end

