-- ==== Sys2Proof/Machine/Operands.lean ====
section
/-! DEFINITION. Operand and byte-order helpers: the fields of an operation word (30_encoding.md R79, R81), the
big-endian split and join of a 16-bit value (20_memory.md R53) and zero extension (00_scope.md R15). -/

namespace Sys2Proof.Machine

/-- `OP`, bits 15:8 of an operation word (30_encoding.md R79). -/
def opField (w : OpWord) : Byte := w.extractLsb' 8 8

/-- `IMM8`, bits 7:0 of an operation word, used exactly as encoded (30_encoding.md R79, R81). -/
def immField (w : OpWord) : Byte := w.extractLsb' 0 8

/-- The word `OP * 256 + IMM8` (30_encoding.md R79). -/
def opWord (op imm : Byte) : OpWord := op ++ imm

/-- `v[15:8]` (00_scope.md R15), the byte of a 2-byte field that is sent first (20_memory.md R53). -/
def hiByte (v : Half) : Byte := v.extractLsb' 8 8

/-- `v[7:0]` (00_scope.md R15), the byte of a 2-byte field that is sent second (20_memory.md R53). -/
def loByte (v : Half) : Byte := v.extractLsb' 0 8

/-- The value `hi * 256 + lo` of a 2-byte field received as `hi` then `lo` (20_memory.md R53). -/
def joinBytes (hi lo : Byte) : Half := hi ++ lo

/-- `zext_16(b)` (00_scope.md R15; 30_encoding.md R81). -/
def zext16 (b : Byte) : Half := b.setWidth 16

end Sys2Proof.Machine
end

