-- ==== Sys2Proof/Machine/Frame.lean ====
section
/-! DEFINITION. The wire format (30_encoding.md R70 to R76): the checksum `sum16`, the frame layout, and what a
valid frame is. -/

namespace Sys2Proof.Machine

/-- `MAX_PAYLOAD` (00_scope.md R13). -/
def maxPayload : Nat := 65533

/-- `MAX_FRAME` (00_scope.md R13). -/
def maxFrame : Nat := 65540

/-- `sum16(xs)`: the sum of the bytes modulo 65536 (00_scope.md R15; 30_encoding.md R73). -/
def sum16 (xs : List Byte) : Half := BitVec.ofNat 16 (xs.map BitVec.toNat).sum

/-- The length field of a frame with `n` payload bytes, `2 + n` (30_encoding.md R72). -/
def lengthField (n : Nat) : Half := BitVec.ofNat 16 (2 + n)

/-- The checksummed bytes of a frame whose length field holds `len`: the frame head and the payload (30_encoding.md
R71, R73). -/
def frameBodyWith (sync addr cmd : Byte) (len : Half) (payload : List Byte) : List Byte :=
  [sync, addr, cmd, hiByte len, loByte len] ++ payload

/-- The checksummed bytes of the frame with this payload (30_encoding.md R71, R72). -/
def frameBody (sync addr cmd : Byte) (payload : List Byte) : List Byte :=
  frameBodyWith sync addr cmd (lengthField payload.length) payload

/-- A body followed by its checksum field, big-endian (30_encoding.md R71, R73). -/
def withChecksum (body : List Byte) : List Byte := body ++ [hiByte (sum16 body), loByte (sum16 body)]

/-- The whole frame (30_encoding.md R71). -/
def frame (sync addr cmd : Byte) (payload : List Byte) : List Byte :=
  withChecksum (frameBody sync addr cmd payload)

end Sys2Proof.Machine
end

