-- ==== Sys2Proof/Machine/Ops.lean ====
section
/-! DEFINITION. The named operations over the state that the meanings share: failure entry (the block's only form
of exception, 60_exceptions.md R167), its return (the fresh start of R169), the per-byte appends (20_memory.md R64),
and the test that a source event has a request to answer (20_memory.md R51). -/

namespace Sys2Proof.Machine

/-- The outcome of one operation: a step (a reader failure among them) or a refusal (00_scope.md R17); a fault
only in unreachable states (assumption 5). -/
abbrev StepOutcome := Host.Outcome State Fault Refusal

/-- `raise K(info)`: failure entry (00_scope.md R17(b); 60_exceptions.md R167). Nothing else is written, no mode
changes, and control goes nowhere. -/
def raiseFailure (k : Failure) (s : State) : State :=
  { s with
    rxState := .done
    rxStatus := k.status
    rxFrameValid := false
    rxFaultCode := k.faultCode s.rxFaultCode }

/-- The clears of `RX_START`, the only operation that leaves `RX_DONE` (41_response_reader.md R122; 60_exceptions.md
R169): every reader datapath field starts fresh and the budget is loaded. -/
def clearReader (s : State) : State :=
  { s with
    rxRaw := []
    rxPayload := []
    rxSum := 0x0000#16
    rxCmd := 0x00#8
    rxLen := 0x0000#16
    rxRemaining := 0x0000#16
    rxChkHi := 0x00#8
    rxChk := 0x0000#16
    rxFrameValid := false
    rxFaultCode := 0x00#8
    rxBudget := s.cfg.maxResyncBytes }

/-- A checksummed byte of the frame under scan arrives: it is appended to `rx_raw` and added into `rx_sum` modulo
65536 (10_state.md R32, R40). -/
def addFrameByte (b : Byte) (s : State) : State :=
  { s with
    rxRaw := s.rxRaw ++ [b]
    rxSum := s.rxSum + zext16 b }

/-- A checksum byte of the frame under scan arrives: it is appended to `rx_raw` and not summed (10_state.md R32,
R40; 30_encoding.md R73). -/
def addChecksumByte (b : Byte) (s : State) : State :=
  { s with rxRaw := s.rxRaw ++ [b] }

/-- A source event is enabled only in a reading state, where a request is outstanding (20_memory.md R51;
41_response_reader.md R123, R135, R136). -/
def answerRequest (s : State) (effect : StepOutcome) : StepOutcome :=
  if s.rxState.isReading then effect else .refused .rxEventNotReading

end Sys2Proof.Machine
end

