-- ==== Sys2Proof/Machine/Builder.lean ====
section
/-! DEFINITION. The frame builder (40_frame_codec.md R100 to R103). -/

namespace Sys2Proof.Machine

/-- `TX_BEGIN c` (40_frame_codec.md R101). -/
def execTxBegin (c : Byte) (s : State) : StepOutcome :=
  match s.txState with
  | .build => .refused .txBeginWhileBuilding
  | .idle =>
    .next { s with
      txCmd := c
      txPayload := []
      txFrame := []
      txValid := false
      txState := .build }

/-- `TX_PUSH b` (40_frame_codec.md R102). A payload already over the capacity, which no run reaches, is full too
(assumption 11). In `TX_IDLE` with 65533 bytes still in `tx_payload` both refusals of R102 apply and the spec ranks
neither: the model answers `TX_PUSH_WHILE_IDLE`, DESIGN CHOICE (assumption 19). -/
def execTxPush (b : Byte) (s : State) : StepOutcome :=
  match s.txState with
  | .idle => .refused .txPushWhileIdle
  | .build =>
    if s.txPayload.length < maxPayload then
      .next { s with txPayload := s.txPayload ++ [b] }
    else .refused .txPayloadFull

/-- `TX_END` (40_frame_codec.md R103). `tx_payload` is left as it was. -/
def execTxEnd (s : State) : StepOutcome :=
  match s.txState with
  | .idle => .refused .txEndWhileIdle
  | .build =>
    if s.txPayload.length ≤ maxPayload then
      .next { s with
        txFrame := frame s.cfg.syncOut s.cfg.addrOut s.txCmd s.txPayload
        txValid := true
        txState := .idle }
    else .fault .payloadOverCapacity

end Sys2Proof.Machine
end

