-- ==== Sys2Proof/Machine/Checksum.lean ====
section
/-! DEFINITION. The stand-alone checksum unit (40_frame_codec.md R106, R107). -/

namespace Sys2Proof.Machine

/-- `CSUM_CLR` (40_frame_codec.md R106): always enabled. -/
def execCsumClr (s : State) : StepOutcome :=
  .next { s with csumAcc := 0x0000#16 }

/-- `CSUM_ADD b` (40_frame_codec.md R107): always enabled; no carry is kept. -/
def execCsumAdd (b : Byte) (s : State) : StepOutcome :=
  .next { s with csumAcc := s.csumAcc + zext16 b }

end Sys2Proof.Machine
end

