-- ==== Sys2Proof/Machine/Reader.lean ====
section
/-! DEFINITION. The response reader (41_response_reader.md R120 to R136): one definition per rule, and the four
operations over them. -/

namespace Sys2Proof.Machine

/-- `RX_START` (41_response_reader.md R122): `NO_FRAME` at once when the budget is 0 (60_exceptions.md R172(e)). -/
def execRxStart (s : State) : StepOutcome :=
  if s.rxState.isReading then .refused .rxStartWhileBusy
  else if s.cfg.maxResyncBytes = 0#32 then .next (raiseFailure .noFrame (clearReader s))
  else .next { clearReader s with rxState := .seekSync, rxStatus := .busy }

/-- `Examine(b)` (41_response_reader.md R124): one unit of the budget, and a match on the last unit still succeeds
(60_exceptions.md R172(a)). Its requirement `rx_budget ≥ 1` is a fault where it is false (assumption 5). -/
def examine (b : Byte) (s : State) : StepOutcome :=
  if s.rxBudget = 0#32 then .fault .examineWithoutBudget
  else
    let k := s.rxBudget - 1#32
    if b = s.cfg.syncIn then
      .next { s with rxBudget := k, rxRaw := [b], rxSum := zext16 b, rxState := .seekAddr }
    else if k = 0#32 then .next (raiseFailure .noFrame { s with rxBudget := k })
    else .next { s with rxBudget := k, rxState := .seekSync }

/-- `RX_BYTE b` in `SEEK_SYNC` (41_response_reader.md R125). -/
def seekSyncByte (b : Byte) (s : State) : StepOutcome := examine b s

/-- The mismatching byte under `RESYNC` is itself a sync candidate, unless the budget is already 0
(41_response_reader.md R128; 60_exceptions.md R172(b)). -/
def resyncByte (b : Byte) (s : State) : StepOutcome :=
  let fresh := { s with rxRaw := [], rxSum := 0x0000#16 }
  if s.rxBudget = 0#32 then .next (raiseFailure .noFrame fresh) else examine b fresh

/-- `RX_BYTE b` in `SEEK_ADDR` (41_response_reader.md R126, R127, R128). -/
def seekAddrByte (b : Byte) (s : State) : StepOutcome :=
  if b = s.cfg.addrIn then .next { addFrameByte b s with rxState := .hdrCmd }
  else
    match s.cfg.addrPolicy with
    | .failFast => .next (raiseFailure .addrMismatch s)
    | .resync => resyncByte b s

/-- `RX_BYTE b` in `HDR_CMD` (41_response_reader.md R129): every byte is a command code. -/
def hdrCmdByte (b : Byte) (s : State) : StepOutcome :=
  .next { addFrameByte b s with rxCmd := b, rxState := .lenHi }

/-- `RX_BYTE b` in `LEN_HI` (41_response_reader.md R130). -/
def lenHiByte (b : Byte) (s : State) : StepOutcome :=
  .next { addFrameByte b s with rxLen := joinBytes b 0x00#8, rxState := .lenLo }

/-- `RX_BYTE b` in `LEN_LO`, the boundary decision (41_response_reader.md R131; 60_exceptions.md R172(c)). -/
def lenLoByte (b : Byte) (s : State) : StepOutcome :=
  let len := joinBytes (hiByte s.rxLen) b
  let taken := { addFrameByte b s with rxLen := len }
  if len.toNat < 2 then .next (raiseFailure .lengthInvalid taken)
  else
    .next { taken with
      rxRemaining := len - 2#16
      rxState := if len = 2#16 then .chkHi else .payload }

/-- `RX_BYTE b` in `PAYLOAD` (41_response_reader.md R132). Its requirement `rx_remaining ≥ 1` is a fault where it is
false (assumption 5). -/
def payloadByte (b : Byte) (s : State) : StepOutcome :=
  if s.rxRemaining = 0#16 then .fault .payloadWithoutRemaining
  else
    let r := s.rxRemaining - 1#16
    .next { addFrameByte b s with
      rxPayload := s.rxPayload ++ [b]
      rxRemaining := r
      rxState := if r = 0#16 then .chkHi else .payload }

/-- `RX_BYTE b` in `CHK_HI` (41_response_reader.md R133): the sum is not changed. -/
def chkHiByte (b : Byte) (s : State) : StepOutcome :=
  .next { addChecksumByte b s with rxChkHi := b, rxState := .chkLo }

/-- `RX_BYTE b` in `CHK_LO`, the validation (41_response_reader.md R134). -/
def chkLoByte (b : Byte) (s : State) : StepOutcome :=
  let chk := joinBytes s.rxChkHi b
  let taken := { addChecksumByte b s with rxChk := chk }
  if chk = s.rxSum then .next { taken with rxState := .done, rxStatus := .ok, rxFrameValid := true }
  else .next (raiseFailure .checksumMismatch taken)

/-- `RX_BYTE b` (41_response_reader.md R123): refused where no request is outstanding, else the rule of the
reader's state. -/
def execRxByte (b : Byte) (s : State) : StepOutcome :=
  match s.rxState with
  | .idle => .refused .rxEventNotReading
  | .seekSync => seekSyncByte b s
  | .seekAddr => seekAddrByte b s
  | .hdrCmd => hdrCmdByte b s
  | .lenHi => lenHiByte b s
  | .lenLo => lenLoByte b s
  | .payload => payloadByte b s
  | .chkHi => chkHiByte b s
  | .chkLo => chkLoByte b s
  | .done => .refused .rxEventNotReading

/-- `RX_UNDERRUN` (41_response_reader.md R135): in every reading state, `SEEK_SYNC` included; no budget is spent. -/
def execRxUnderrun (s : State) : StepOutcome :=
  answerRequest s (.next (raiseFailure .underrun s))

/-- `RX_CHFAULT c` (41_response_reader.md R136): the code is passed through uninterpreted. -/
def execRxChfault (c : Byte) (s : State) : StepOutcome :=
  answerRequest s (.next (raiseFailure (.channelFault c) s))

end Sys2Proof.Machine
end

