-- ==== Sys2Proof/Syntax.lean ====
section
/-! DEFINITION. The operations of the block: one constructor per row of the opcode map (30_encoding.md R80). An
operand is the byte of `IMM8` (R81), so a term outside the operand's range cannot be written down. -/

namespace Sys2Proof

/-- One operation (30_encoding.md R80). -/
inductive Instr where
  /-- `TX_BEGIN c`: start an outbound frame with command code `c` (40_frame_codec.md R101). -/
  | txBegin (c : Byte)
  /-- `TX_PUSH b`: append one payload byte (40_frame_codec.md R102). -/
  | txPush (b : Byte)
  /-- `TX_END`: emit the frame (40_frame_codec.md R103). -/
  | txEnd
  /-- `CSUM_CLR`: clear the checksum accumulator (40_frame_codec.md R106). -/
  | csumClr
  /-- `CSUM_ADD b`: add one byte to the accumulator (40_frame_codec.md R107). -/
  | csumAdd (b : Byte)
  /-- `RX_START`: begin one reader invocation (41_response_reader.md R122). -/
  | rxStart
  /-- `RX_BYTE b`: the byte source delivers the next stream byte (41_response_reader.md R123). -/
  | rxByte (b : Byte)
  /-- `RX_UNDERRUN`: the byte source yields no byte (41_response_reader.md R135). -/
  | rxUnderrun
  /-- `RX_CHFAULT c`: the channel reports an I/O fault with the opaque code `c` (41_response_reader.md R136). -/
  | rxChfault (c : Byte)
deriving DecidableEq, Repr

end Sys2Proof
end

