-- ==== Sys2Proof/Machine/Dispatch.lean ====
section
/-! DEFINITION. The dispatch of an operation to its meaning, one arm per constructor of `Instr`. -/

namespace Sys2Proof.Machine

def exec (i : Instr) (s : State) : Host.Outcome State Fault Refusal :=
  match i with
  | .txBegin c => Sys2Proof.Machine.execTxBegin c s
  | .txPush b => Sys2Proof.Machine.execTxPush b s
  | .txEnd => Sys2Proof.Machine.execTxEnd s
  | .csumClr => Sys2Proof.Machine.execCsumClr s
  | .csumAdd b => Sys2Proof.Machine.execCsumAdd b s
  | .rxStart => Sys2Proof.Machine.execRxStart s
  | .rxByte b => Sys2Proof.Machine.execRxByte b s
  | .rxUnderrun => Sys2Proof.Machine.execRxUnderrun s
  | .rxChfault c => Sys2Proof.Machine.execRxChfault c s

end Sys2Proof.Machine
end

