-- ==== Sys2Proof/Decode.lean ====
section
/-! DEFINITION. Decoding an operation word, total, with every reserved word rejected by name (30_encoding.md R80
to R83), and the encoder beside it. -/

namespace Sys2Proof

open Sys2Proof.Machine

/-- Why a word is reserved (30_encoding.md R82). -/
inductive ReservedReason where
  /-- R82(a): `OP` is not in the opcode map. -/
  | opcode
  /-- R82(b): an operation without an operand whose `IMM8` is not `0x00`. -/
  | operand
deriving DecidableEq, Repr

/-- What a word decodes to. -/
inductive Decoded where
  | instr (i : Instr)
  | reserved (r : ReservedReason)
deriving DecidableEq, Repr

/-- An operation without an operand: `IMM8` must be `0x00` (30_encoding.md R82(b)). -/
def decodeOperandless (i : Instr) (imm : Byte) : Decoded :=
  if imm = 0x00#8 then .instr i else .reserved .operand

/-- Decode by `OP` and, for the operand-less operations, `IMM8 = 0x00` (30_encoding.md R80, R83). -/
def decodeFields (op imm : Byte) : Decoded :=
  match op.toNat with
  | 0x01 => .instr (.txBegin imm)
  | 0x02 => .instr (.txPush imm)
  | 0x03 => decodeOperandless .txEnd imm
  | 0x08 => decodeOperandless .csumClr imm
  | 0x09 => .instr (.csumAdd imm)
  | 0x10 => decodeOperandless .rxStart imm
  | 0x11 => .instr (.rxByte imm)
  | 0x12 => decodeOperandless .rxUnderrun imm
  | 0x13 => .instr (.rxChfault imm)
  | _ => .reserved .opcode

/-- One word is read and decided; there is no prefix and no compressed form (30_encoding.md R83). -/
def decode (w : OpWord) : Decoded := decodeFields (opField w) (immField w)

/-- The port's word from an opcode-table word of `nbits` bits: the bits above `nbits` are 0, and a word of the port
has 16 bits (30_encoding.md R79; assumption 16). -/
def portWord (nbits w : Nat) : OpWord := BitVec.ofNat 16 (w % 2 ^ nbits)

/-- The instruction the decoder reads from an opcode-table word; none where it refuses. -/
def decodeTableWord (nbits w : Nat) : Option Instr :=
  match decode (portWord nbits w) with
  | .instr i => some i
  | .reserved _ => none

/-- The operation code of each operation (30_encoding.md R80). -/
def opcodeOf : Instr → Byte
  | .txBegin _ => 0x01#8
  | .txPush _ => 0x02#8
  | .txEnd => 0x03#8
  | .csumClr => 0x08#8
  | .csumAdd _ => 0x09#8
  | .rxStart => 0x10#8
  | .rxByte _ => 0x11#8
  | .rxUnderrun => 0x12#8
  | .rxChfault _ => 0x13#8

/-- The operand byte; `0x00` for operations without an operand (30_encoding.md R79). -/
def operandOf : Instr → Byte
  | .txBegin c => c
  | .txPush b => b
  | .txEnd => 0x00#8
  | .csumClr => 0x00#8
  | .csumAdd b => b
  | .rxStart => 0x00#8
  | .rxByte b => b
  | .rxUnderrun => 0x00#8
  | .rxChfault c => c

/-- The word of an operation (30_encoding.md R79, R80). -/
def encode (i : Instr) : OpWord := opWord (opcodeOf i) (operandOf i)

/-! Every constructor's decoding, each word written out from the table of 30_encoding.md R80 and R84. -/

theorem decode_word_txBegin : decode 0x0102#16 = .instr (.txBegin 0x02#8) := by decide
theorem decode_word_txPush : decode 0x02F4#16 = .instr (.txPush 0xF4#8) := by decide
theorem decode_word_txEnd : decode 0x0300#16 = .instr .txEnd := by decide
theorem decode_word_csumClr : decode 0x0800#16 = .instr .csumClr := by decide
theorem decode_word_csumAdd : decode 0x09A5#16 = .instr (.csumAdd 0xA5#8) := by decide
theorem decode_word_rxStart : decode 0x1000#16 = .instr .rxStart := by decide
theorem decode_word_rxByte : decode 0x11A6#16 = .instr (.rxByte 0xA6#8) := by decide
theorem decode_word_rxUnderrun : decode 0x1200#16 = .instr .rxUnderrun := by decide
theorem decode_word_rxChfault : decode 0x1305#16 = .instr (.rxChfault 0x05#8) := by decide

end Sys2Proof
end

