-- ==== Sys2Proof/Machine/Port.lean ====
section
/-! DEFINITION. The operation port (10_state.md R23): taking the next offered word, offering words, waiting where
none is offered, refusing a reserved word (30_encoding.md R82), and the external reset event
(70_reset_and_hazards.md R180). -/

namespace Sys2Proof.Machine

/-- What the port holds for the next step. -/
inductive PortRead where
  /-- no operation is offered -/
  | waiting
  /-- the oldest word is this operation; the state is the one it acts on, with the word taken -/
  | operation (i : Instr) (s : State)
  /-- the oldest word is reserved (30_encoding.md R82) -/
  | reserved (r : ReservedReason)
deriving DecidableEq, Repr

/-- Read the port: one word per step, the oldest first (10_state.md R23; 20_memory.md R59; assumption 3). -/
def readPort (s : State) : PortRead :=
  match s.port with
  | [] => .waiting
  | w :: rest =>
    match decode w with
    | .instr i => .operation i { s with port := rest }
    | .reserved r => .reserved r

/-- No operation is offered: the block waits and nothing changes (70_reset_and_hazards.md R188, R190; assumption 4). -/
def waitForOperation (s : State) : StepOutcome := .next s

/-- A reserved word is refused by name (30_encoding.md R82; 60_exceptions.md R170). -/
def refuseReserved : ReservedReason → StepOutcome
  | .opcode => .refused .reservedOpcode
  | .operand => .refused .reservedOperand

/-- An agent's word is offered ahead of every other. -/
def offerFirst (w : OpWord) (s : State) : State := { s with port := w :: s.port }

/-- Agents offer further operations, in one total order (20_memory.md R59). -/
def offerOps (is : List Instr) (s : State) : State := { s with port := s.port ++ is.map encode }

/-- The external reset event (70_reset_and_hazards.md R180): every field of the state record goes to its value of
10_state.md R43, whatever it was. The parameters are fixed (10_state.md R24), and the port is no field of the record
(assumption 15). -/
def applyReset (s : State) : State := { State.resetWith s.cfg with port := s.port }

end Sys2Proof.Machine
end

