-- ==== Sys2Proof/Machine/Step.lean ====
section
/-! DEFINITION. One step: the oldest word offered on the port is decoded and its operation executed (10_state.md
R23; 20_memory.md R59). -/

namespace Sys2Proof.Machine

/-- One operation is applied per step (20_memory.md R59; 60_exceptions.md R171). -/
def step (s : State) : Host.Outcome State Fault Refusal :=
  match readPort s with
  | .waiting => waitForOperation s
  | .operation i s' => exec i s'
  | .reserved r => refuseReserved r

/-- `s` with the opcode-table word `w` offered on the operation port ahead of everything else (assumptions 3, 16). -/
def State.withFetchWord (s : State) (nbits w : Nat) : State := offerFirst (portWord nbits w) s

end Sys2Proof.Machine
end

