-- ==== Sys2Proof/Machine/Asm.lean ====
section
/-! DEFINITION. The assembly syntax (30_encoding.md R84) and the pseudo-instructions (R85). Lines are lists of
characters. What R84 leaves open (spaces, letter case of hexadecimal digits, leading zeros) is fixed here: DESIGN
CHOICE, safe, assumption 12. -/

namespace Sys2Proof.Machine

/-- The pseudo-instructions (30_encoding.md R85). -/
inductive Pseudo where
  | txFrame (c : Byte) (p : List Byte)
  | csumSeq (xs : List Byte)
  | rxStream (xs : List Byte)
  | rxShort (xs : List Byte)
deriving DecidableEq, Repr

/-- The expansion that defines each pseudo-instruction (30_encoding.md R85). -/
def expand : Pseudo → List Instr
  | .txFrame c p => .txBegin c :: (p.map Instr.txPush ++ [.txEnd])
  | .csumSeq xs => .csumClr :: xs.map Instr.csumAdd
  | .rxStream xs => xs.map Instr.rxByte
  | .rxShort xs => xs.map Instr.rxByte ++ [.rxUnderrun]

/-- A space or a tab. -/
def isBlank (c : Char) : Bool := c == ' ' || c == '\t'

/-- The line without its comment (30_encoding.md R84: a `;` starts a comment). -/
def dropComment (line : List Char) : List Char := line.takeWhile fun c => c != ';'

/-- The text without blanks at either end. -/
def trimBlanks (cs : List Char) : List Char :=
  ((cs.dropWhile isBlank).reverse.dropWhile isBlank).reverse

/-- A decimal digit's value. -/
def decDigit (c : Char) : Option Nat :=
  if '0'.toNat ≤ c.toNat ∧ c.toNat ≤ '9'.toNat then some (c.toNat - '0'.toNat) else none

/-- A hexadecimal digit's value, either letter case. -/
def hexDigit (c : Char) : Option Nat :=
  if 'A'.toNat ≤ c.toNat ∧ c.toNat ≤ 'F'.toNat then some (c.toNat - 'A'.toNat + 10)
  else if 'a'.toNat ≤ c.toNat ∧ c.toNat ≤ 'f'.toNat then some (c.toNat - 'a'.toNat + 10)
  else decDigit c

/-- A number written in decimal digits, added to `acc` already read. -/
def decNumber (acc : Nat) : List Char → Option Nat
  | [] => some acc
  | c :: cs =>
    match decDigit c with
    | some d => decNumber (acc * 10 + d) cs
    | none => none

/-- A byte operand: `0xNN`, or decimal 0 to 255; any other operand is an error (30_encoding.md R84). -/
def byteOperand (cs : List Char) : Option Byte :=
  match cs with
  | ['0', 'x', h, l] =>
    match hexDigit h, hexDigit l with
    | some hi, some lo => some (BitVec.ofNat 8 (hi * 16 + lo))
    | _, _ => none
  | [] => none
  | ds =>
    match decNumber 0 ds with
    | some n => if n ≤ 255 then some (BitVec.ofNat 8 n) else none
    | none => none

/-- The pieces of a text between its commas. -/
def splitCommas : List Char → List (List Char)
  | [] => [[]]
  | c :: cs =>
    if c == ',' then [] :: splitCommas cs
    else
      match splitCommas cs with
      | [] => [[c]]
      | p :: ps => (c :: p) :: ps

/-- Every piece must be a byte. -/
def byteOperands : List (List Char) → Option (List Byte)
  | [] => some []
  | p :: ps =>
    match byteOperand (trimBlanks p), byteOperands ps with
    | some b, some bs => some (b :: bs)
    | _, _ => none

/-- A byte list in square brackets (30_encoding.md R85). -/
def listOperand (cs : List Char) : Option (List Byte) :=
  match cs with
  | '[' :: rest =>
    match rest.reverse with
    | ']' :: inner =>
      let body := trimBlanks inner.reverse
      if body = [] then some [] else byteOperands (splitCommas body)
    | _ => none
  | _ => none

/-- An operation with a byte operand. -/
def withByte (mk : Byte → Instr) (arg : List Char) : Option (List Instr) :=
  match byteOperand arg with
  | some b => some [mk b]
  | none => none

/-- An operation without an operand. -/
def withoutOperand (i : Instr) (arg : List Char) : Option (List Instr) :=
  if arg = [] then some [i] else none

/-- A pseudo-instruction over a byte list. -/
def withList (mk : List Byte → Pseudo) (arg : List Char) : Option (List Instr) :=
  match listOperand arg with
  | some xs => some (expand (mk xs))
  | none => none

/-- The operands of `tx.frame`: a byte, a comma, a byte list (30_encoding.md R85). -/
def frameOperands (arg : List Char) : Option (List Instr) :=
  let first := arg.takeWhile fun c => c != ','
  let rest := (arg.dropWhile fun c => c != ',').drop 1
  match byteOperand (trimBlanks first), listOperand (trimBlanks rest) with
  | some c, some p => some (expand (.txFrame c p))
  | _, _ => none

/-- The operations a mnemonic with its operand text stands for (30_encoding.md R84, R85). -/
def assembleMnemonic (m : String) (arg : List Char) : Option (List Instr) :=
  if m = "tx.begin" then withByte .txBegin arg
  else if m = "tx.push" then withByte .txPush arg
  else if m = "tx.end" then withoutOperand .txEnd arg
  else if m = "csum.clr" then withoutOperand .csumClr arg
  else if m = "csum.add" then withByte .csumAdd arg
  else if m = "rx.start" then withoutOperand .rxStart arg
  else if m = "rx.byte" then withByte .rxByte arg
  else if m = "rx.underrun" then withoutOperand .rxUnderrun arg
  else if m = "rx.chfault" then withByte .rxChfault arg
  else if m = "tx.frame" then frameOperands arg
  else if m = "csum.seq" then withList .csumSeq arg
  else if m = "rx.stream" then withList .rxStream arg
  else if m = "rx.short" then withList .rxShort arg
  else none

/-- One line of a listing: nothing, one operation, or a pseudo-instruction (30_encoding.md R84). -/
def assembleLine (line : List Char) : Option (List Instr) :=
  let text := trimBlanks (dropComment line)
  if text = [] then some []
  else
    assembleMnemonic (String.ofList (text.takeWhile fun c => !isBlank c))
      (trimBlanks (text.dropWhile fun c => !isBlank c))

/-- A listing is a single total order of operations (30_encoding.md R84); its words. -/
def assemble : List (List Char) → Option (List OpWord)
  | [] => some []
  | line :: lines =>
    match assembleLine line, assemble lines with
    | some is, some ws => some (is.map encode ++ ws)
    | _, _ => none

/-- The mnemonic of each operation in assembly text (30_encoding.md R84). -/
def asmMnemonic : Instr → String
  | .txBegin _ => "tx.begin"
  | .txPush _ => "tx.push"
  | .txEnd => "tx.end"
  | .csumClr => "csum.clr"
  | .csumAdd _ => "csum.add"
  | .rxStart => "rx.start"
  | .rxByte _ => "rx.byte"
  | .rxUnderrun => "rx.underrun"
  | .rxChfault _ => "rx.chfault"

/-- A hexadecimal digit in the spelling of 00_scope.md R15. -/
def hexChar (n : Nat) : Char :=
  if n < 10 then Char.ofNat ('0'.toNat + n) else Char.ofNat ('A'.toNat + (n - 10))

/-- A byte written `0xNN` (30_encoding.md R84). -/
def byteText (b : Byte) : List Char := ['0', 'x', hexChar (b.toNat / 16), hexChar (b.toNat % 16)]

/-- The assembly line of an operation (30_encoding.md R84). -/
def asmLine (i : Instr) : List Char :=
  match i with
  | .txBegin c => (asmMnemonic i).toList ++ ' ' :: byteText c
  | .txPush b => (asmMnemonic i).toList ++ ' ' :: byteText b
  | .txEnd => (asmMnemonic i).toList
  | .csumClr => (asmMnemonic i).toList
  | .csumAdd b => (asmMnemonic i).toList ++ ' ' :: byteText b
  | .rxStart => (asmMnemonic i).toList
  | .rxByte b => (asmMnemonic i).toList ++ ' ' :: byteText b
  | .rxUnderrun => (asmMnemonic i).toList
  | .rxChfault c => (asmMnemonic i).toList ++ ' ' :: byteText c

end Sys2Proof.Machine
end

