-- ==== Sys2Proof/Machine/Channel.lean ====
section
/-! DEFINITION. The byte source as the reader sees it, a pull interface (20_memory.md R51, R56(d), R57): each answer
goes to one outstanding request, and what is not asked for stays in the channel. The channel is outside the block:
nothing here is a field of `State` (assumption 17). -/

namespace Sys2Proof.Machine

/-- One answer of the byte source to one request (20_memory.md R51). -/
inductive SourceEvent where
  | byte (b : Byte)
  | underrun
  | chfault (c : Byte)
deriving DecidableEq, Repr

/-- The operation that carries an answer (30_encoding.md R80). -/
def sourceOp : SourceEvent → Instr
  | .byte b => .rxByte b
  | .underrun => .rxUnderrun
  | .chfault c => .rxChfault c

/-- Where a stretch of answers leaves the block and the channel. -/
structure Served where
  state : State
  /-- the answers that were not asked for, still in the channel (20_memory.md R57; 70_reset_and_hazards.md R186) -/
  left : List SourceEvent
deriving DecidableEq, Repr

/-- The byte source answers request after request until the reader stops asking or the list ends. -/
def serve : List SourceEvent → State → Served
  | [], s => ⟨s, []⟩
  | e :: es, s =>
    if s.rxState.isReading then
      match exec (sourceOp e) s with
      | .next s' => serve es s'
      | .fault _ => ⟨s, e :: es⟩
      | .refused _ => ⟨s, e :: es⟩
    else ⟨s, e :: es⟩

/-- A `read(n)` that returned fewer than `n` bytes: the bytes, then one underrun (20_memory.md R56(d)). -/
def shortRead (xs : List Byte) : List SourceEvent := xs.map SourceEvent.byte ++ [.underrun]

end Sys2Proof.Machine
end

