-- ==== Sys2Proof/WellFormed.lean ====
section
/-! DEFINITION. What a well-formed offer on the operation port is: a legal word (30_encoding.md R80, R82), issued
by the agent of its row (10_state.md R22). The check is over raw words: `Instr` itself has no ill-formed term. -/

namespace Sys2Proof

/-- The agents that issue operations (10_state.md R22(a), (b)); the byte sink issues none. -/
inductive Agent where
  | host
  | byteSource
deriving DecidableEq, Repr

/-- One row of the opcode map: a word `w` is the row's when `w &&& mask = value` (30_encoding.md R80, R82). -/
structure OpRow where
  mnemonic : String
  mask : OpWord
  value : OpWord
  issuer : Agent
deriving DecidableEq, Repr

/-- The opcode map (30_encoding.md R80), with the zero `IMM8` of the operand-less rows in the mask (R82(b)). -/
def opcodeMap : List OpRow :=
  [ ⟨"TX_BEGIN", 0xFF00#16, 0x0100#16, .host⟩,
    ⟨"TX_PUSH", 0xFF00#16, 0x0200#16, .host⟩,
    ⟨"TX_END", 0xFFFF#16, 0x0300#16, .host⟩,
    ⟨"CSUM_CLR", 0xFFFF#16, 0x0800#16, .host⟩,
    ⟨"CSUM_ADD", 0xFF00#16, 0x0900#16, .host⟩,
    ⟨"RX_START", 0xFFFF#16, 0x1000#16, .host⟩,
    ⟨"RX_BYTE", 0xFF00#16, 0x1100#16, .byteSource⟩,
    ⟨"RX_UNDERRUN", 0xFFFF#16, 0x1200#16, .byteSource⟩,
    ⟨"RX_CHFAULT", 0xFF00#16, 0x1300#16, .byteSource⟩ ]

/-- The row a word belongs to. -/
def OpRow.covers (r : OpRow) (w : OpWord) : Bool := w &&& r.mask == r.value

/-- A word that is not reserved (30_encoding.md R82). -/
def wordLegal (w : OpWord) : Bool := opcodeMap.any fun r => r.covers w

/-- A legal word issued by its row's agent (10_state.md R22; 30_encoding.md R80). The port carries no agent, so
the block does not check this: it is the environment's side of the interface (assumption 13). -/
def offerWellFormed (a : Agent) (w : OpWord) : Bool :=
  opcodeMap.any fun r => r.covers w && decide (r.issuer = a)

/-- Who issues an operation (10_state.md R22). -/
def Instr.issuer : Instr → Agent
  | .txBegin _ => .host
  | .txPush _ => .host
  | .txEnd => .host
  | .csumClr => .host
  | .csumAdd _ => .host
  | .rxStart => .host
  | .rxByte _ => .byteSource
  | .rxUnderrun => .byteSource
  | .rxChfault _ => .byteSource

end Sys2Proof
end

