-- ==== Sys2Proof/Machine/Environment.lean ====
section
/-! DEFINITION. The environment of the block over time: in each turn the agents offer an operation or nothing, or the
platform resets the block (10_state.md R22, R23; 70_reset_and_hazards.md R180, R190), and the byte source's duty to
answer, as a weak-fairness assumption (70_reset_and_hazards.md R188). Nothing here is a field of `State` or changes a
step: a claim that needs the duty takes `WeaklyFair` as its premise (assumption 14). -/

namespace Sys2Proof.Machine

/-- What happens in one turn: nothing is offered (70_reset_and_hazards.md R190), one operation is offered
(20_memory.md R59), or the platform resets the block (70_reset_and_hazards.md R180). -/
inductive Turn where
  | wait
  | operation (i : Instr)
  | reset
deriving DecidableEq, Repr

/-- One turn of the environment and the block's step in it; a reset is no step (assumption 15). -/
def takeTurn (u : Turn) (s : State) : StepOutcome :=
  match u with
  | .wait => step s
  | .operation i => step (offerOps [i] s)
  | .reset => .next (applyReset s)

/-- The turn in which the byte source answers a request, with any of its three operations (20_memory.md R51; 10_state.md
R22(b)). -/
def Turn.isAnswer : Turn → Bool
  | .wait => false
  | .operation i => decide (i.issuer = .byteSource)
  | .reset => false

/-- A run that never stops: no word waits at its start, and each turn takes one state to the next. -/
abbrev IsRun (turns : Nat → Turn) (states : Nat → State) : Prop :=
  (states 0).port = [] ∧ ∀ n, takeTurn (turns n) (states n) = .next (states (n + 1))

/-- The byte source's duty (70_reset_and_hazards.md R188; 92_eei_decisions.md D17), weak fairness: where a request is
outstanding in every state from turn `n` on, some turn from `n` on answers it. -/
abbrev WeaklyFair (turns : Nat → Turn) (states : Nat → State) : Prop :=
  ∀ n, (∀ m, n ≤ m → (states m).rxState.isReading = true) → ∃ m, n ≤ m ∧ (turns m).isAnswer = true

/-- How many of the turns `n` to `n + k - 1` are answers of the byte source (41_response_reader.md R139 counts source
events). -/
def answersIn (turns : Nat → Turn) (n : Nat) : Nat → Nat
  | 0 => 0
  | k + 1 => answersIn turns n k + if (turns (n + k)).isAnswer then 1 else 0

end Sys2Proof.Machine
end

