-- ==== Sys2Proof/Machine/Observe.lean ====
section
/-! DEFINITION. The observation port (10_state.md R41): what the host reads, at any time and without side effect. A
read outside its condition answers nothing, `OUTPUT_NOT_VALID` (60_exceptions.md R170). -/

namespace Sys2Proof.Machine

/-- The outputs the host may ask for (10_state.md R41; `rx_frame_valid` by R34, assumption 8). -/
inductive Output where
  | rxState
  | rxStatus
  | rxFrameValid
  | rxFaultCode
  | rxRaw
  | rxCmd
  | rxPayload
  | rxLen
  | rxChk
  | txState
  | txFrame
  | csumAcc
deriving DecidableEq, Repr

/-- The value of an output. -/
inductive OutputValue where
  | txState (v : TxState)
  | rxState (v : RxState)
  | rxStatus (v : RxStatus)
  | bit (v : Bool)
  | byte (v : Byte)
  | half (v : Half)
  | bytes (v : List Byte)
deriving DecidableEq, Repr

/-- The frame an accepted invocation returns, `{raw_bytes, command_code, payload}` (10_state.md R41(b)). -/
structure AcceptedFrame where
  rawBytes : List Byte
  commandCode : Byte
  payload : List Byte
deriving DecidableEq, Repr

/-- A read's answer: a value, or a refusal by name (60_exceptions.md R170). -/
inductive ReadAnswer where
  | value (v : OutputValue)
  | refused (r : Refusal)
deriving DecidableEq, Repr

/-- A value offered only under a condition; otherwise no value (10_state.md R41). -/
def offeredWhen (c : Bool) (v : OutputValue) : Option OutputValue := if c then some v else none

/-- The observation port (10_state.md R41(a) to (d)). -/
def observe (o : Output) (s : State) : Option OutputValue :=
  match o with
  | .rxState => some (.rxState s.rxState)
  | .rxStatus => some (.rxStatus s.rxStatus)
  | .rxFrameValid => some (.bit s.rxFrameValid)
  | .rxFaultCode => offeredWhen (decide (s.rxStatus = .channelFault)) (.byte s.rxFaultCode)
  | .rxRaw => offeredWhen s.rxFrameValid (.bytes s.rxRaw)
  | .rxCmd => offeredWhen s.rxFrameValid (.byte s.rxCmd)
  | .rxPayload => offeredWhen s.rxFrameValid (.bytes s.rxPayload)
  | .rxLen => offeredWhen s.rxFrameValid (.half s.rxLen)
  | .rxChk => offeredWhen s.rxFrameValid (.half s.rxChk)
  | .txState => some (.txState s.txState)
  | .txFrame => offeredWhen s.txValid (.bytes s.txFrame)
  | .csumAcc => some (.half s.csumAcc)

/-- A read as an act of the host: a value, or the refusal `OUTPUT_NOT_VALID` (60_exceptions.md R170; assumption 9). -/
def readOutput (o : Output) (s : State) : ReadAnswer :=
  match observe o s with
  | some v => .value v
  | none => .refused .outputNotValid

/-- The accepted frame, only while it is valid (10_state.md R41(b); 70_reset_and_hazards.md R185). -/
def observeFrame (s : State) : Option AcceptedFrame :=
  if s.rxFrameValid then some ⟨s.rxRaw, s.rxCmd, s.rxPayload⟩ else none

/-- An invocation has ended when the status is neither `NONE` nor `BUSY` (60_exceptions.md R173): the block raises
no interrupt, so the host polls this. -/
def invocationEnded (s : State) : Bool := decide (s.rxStatus ≠ .none) && decide (s.rxStatus ≠ .busy)

end Sys2Proof.Machine
end

