-- ==== Sys2Proof/Safety.lean ====
section
/-! DEFINITION. The terms the claims use: the parts of the block and what leaves a part alone, the reader's
invariants as 10_state.md R44 lists them, the full invariant every step keeps, reachability, and what it is for an
outcome to be no fault. -/

namespace Sys2Proof.Machine

/-- The three parts, which share no field (40_frame_codec.md R109). -/
inductive Part where
  | builder
  | checksum
  | reader
deriving DecidableEq, Repr

/-- The part an operation belongs to (40_frame_codec.md R109). -/
def partOf : Instr → Part
  | .txBegin _ => .builder
  | .txPush _ => .builder
  | .txEnd => .builder
  | .csumClr => .checksum
  | .csumAdd _ => .checksum
  | .rxStart => .reader
  | .rxByte _ => .reader
  | .rxUnderrun => .reader
  | .rxChfault _ => .reader

/-- The fields of the frame builder are the same (10_state.md R25 to R28). -/
abbrev SameBuilder (s t : State) : Prop :=
  t.txState = s.txState ∧ t.txCmd = s.txCmd ∧ t.txPayload = s.txPayload ∧ t.txFrame = s.txFrame ∧
    t.txValid = s.txValid

/-- The field of the checksum unit is the same (10_state.md R29). -/
abbrev SameChecksum (s t : State) : Prop := t.csumAcc = s.csumAcc

/-- The fields of the reader are the same (10_state.md R30 to R40). -/
abbrev SameReader (s t : State) : Prop :=
  t.rxState = s.rxState ∧ t.rxStatus = s.rxStatus ∧ t.rxBudget = s.rxBudget ∧ t.rxSum = s.rxSum ∧
    t.rxFrameValid = s.rxFrameValid ∧ t.rxFaultCode = s.rxFaultCode ∧ t.rxCmd = s.rxCmd ∧ t.rxLen = s.rxLen ∧
    t.rxRemaining = s.rxRemaining ∧ t.rxChkHi = s.rxChkHi ∧ t.rxChk = s.rxChk ∧ t.rxPayload = s.rxPayload ∧
    t.rxRaw = s.rxRaw

/-- The instance's parameters and the words still offered are the same. -/
abbrev SameEnvironment (s t : State) : Prop := t.cfg = s.cfg ∧ t.port = s.port

/-- An outcome that is no fault: a step or one of the spec's refusals (00_scope.md R17). -/
def noFault : StepOutcome → Bool
  | .next _ => true
  | .refused _ => true
  | .fault _ => false

/-- The reader invariants exactly as 10_state.md R44(a) to (g) lists them. -/
abbrev ReaderInvariants (s : State) : Prop :=
  -- (a)
  (s.rxStatus = .busy ↔ 1 ≤ s.rxState.code.toNat ∧ s.rxState.code.toNat ≤ 8) ∧
  -- (b)
  (s.rxState = .seekSync → 1 ≤ s.rxBudget.toNat ∧ s.rxRaw = [] ∧ s.rxSum = 0#16) ∧
  -- (c)
  (2 ≤ s.rxState.code.toNat ∧ s.rxState.code.toNat ≤ 7 →
    s.rxSum = sum16 s.rxRaw ∧ s.rxRaw.head? = some s.cfg.syncIn) ∧
  -- (d)
  (s.rxState = .chkLo →
    s.rxSum = sum16 (s.rxRaw.take (s.rxRaw.length - 1)) ∧ s.rxRaw.getLast? = some s.rxChkHi) ∧
  -- (e)
  (s.rxState = .payload →
    s.rxPayload.length + s.rxRemaining.toNat + 2 = s.rxLen.toNat ∧ 1 ≤ s.rxRemaining.toNat) ∧
  -- (f)
  (s.rxState = .chkHi ∨ s.rxState = .chkLo → s.rxPayload.length + 2 = s.rxLen.toNat) ∧
  -- (g)
  (s.rxFrameValid = true ↔ s.rxState = .done ∧ s.rxStatus = .ok)

/-- The checksummed bytes of the frame under scan once its head is complete (30_encoding.md R71, R73). -/
def scannedBody (s : State) : List Byte :=
  frameBodyWith s.cfg.syncIn s.cfg.addrIn s.rxCmd s.rxLen s.rxPayload

/-- What the frame builder's fields always satisfy (10_state.md R27, R28; 40_frame_codec.md R103). -/
abbrev BuilderInv (s : State) : Prop :=
  s.txPayload.length ≤ maxPayload ∧
  (s.txState = .build → s.txValid = false) ∧
  (s.txValid = false → s.txFrame = []) ∧
  (s.txValid = true → s.txFrame = frame s.cfg.syncOut s.cfg.addrOut s.txCmd s.txPayload)

/-- What `rx_raw`, `rx_sum`, `rx_payload`, `rx_len` and `rx_remaining` hold in each reading state
(41_response_reader.md R124 to R134, R137). -/
abbrev ScanInv (s : State) : Prop :=
  (s.rxState = .seekSync → 1 ≤ s.rxBudget.toNat ∧ s.rxRaw = [] ∧ s.rxSum = 0#16 ∧ s.rxPayload = []) ∧
  (s.rxState = .seekAddr → s.rxRaw = [s.cfg.syncIn] ∧ s.rxSum = sum16 s.rxRaw ∧ s.rxPayload = []) ∧
  (s.rxState = .hdrCmd → s.rxRaw = [s.cfg.syncIn, s.cfg.addrIn] ∧ s.rxSum = sum16 s.rxRaw ∧ s.rxPayload = []) ∧
  (s.rxState = .lenHi →
    s.rxRaw = [s.cfg.syncIn, s.cfg.addrIn, s.rxCmd] ∧ s.rxSum = sum16 s.rxRaw ∧ s.rxPayload = []) ∧
  (s.rxState = .lenLo →
    s.rxRaw = [s.cfg.syncIn, s.cfg.addrIn, s.rxCmd, hiByte s.rxLen] ∧ s.rxSum = sum16 s.rxRaw ∧ s.rxPayload = []) ∧
  (s.rxState = .payload →
    s.rxRaw = scannedBody s ∧ s.rxSum = sum16 s.rxRaw ∧
      s.rxPayload.length + s.rxRemaining.toNat + 2 = s.rxLen.toNat ∧ 1 ≤ s.rxRemaining.toNat) ∧
  (s.rxState = .chkHi →
    s.rxRaw = scannedBody s ∧ s.rxSum = sum16 s.rxRaw ∧ s.rxPayload.length + 2 = s.rxLen.toNat) ∧
  (s.rxState = .chkLo →
    s.rxRaw = scannedBody s ++ [s.rxChkHi] ∧ s.rxSum = sum16 (scannedBody s) ∧
      s.rxPayload.length + 2 = s.rxLen.toNat)

/-- What the outcome registers always satisfy (10_state.md R33 to R35; 60_exceptions.md R160 to R166;
41_response_reader.md R138). -/
abbrev OutcomeInv (s : State) : Prop :=
  (s.rxStatus = .busy ↔ s.rxState.isReading = true) ∧
  (s.rxStatus = .none ↔ s.rxState = .idle) ∧
  (s.rxFrameValid = true ↔ s.rxStatus = .ok) ∧
  (s.rxStatus ≠ .channelFault → s.rxFaultCode = 0x00#8) ∧
  (s.rxStatus = .noFrame → s.rxBudget = 0#32) ∧
  (s.rxStatus = .addrMismatch → s.cfg.addrPolicy = .failFast) ∧
  (s.rxStatus = .lengthInvalid → s.rxLen.toNat < 2) ∧
  (s.rxStatus = .checksumMismatch → s.rxChk ≠ s.rxSum) ∧
  (s.rxStatus = .ok →
    s.rxRaw = scannedBody s ++ [hiByte s.rxChk, loByte s.rxChk] ∧ s.rxChk = sum16 (scannedBody s) ∧
      s.rxPayload.length + 2 = s.rxLen.toNat)

/-- The bounds of 10_state.md R31, R39 and R40. -/
abbrev BoundInv (s : State) : Prop :=
  s.rxBudget.toNat ≤ s.cfg.maxResyncBytes.toNat ∧ s.rxPayload.length ≤ maxPayload ∧ s.rxRaw.length ≤ maxFrame

/-- The full invariant: strong enough that every step keeps it. -/
abbrev FramerInv (s : State) : Prop := BuilderInv s ∧ ScanInv s ∧ OutcomeInv s ∧ BoundInv s

/-- The states an instance can be in: after reset, after further words are offered on the port, after a step, after a
reset event (70_reset_and_hazards.md R180; 20_memory.md R59). -/
inductive Reachable (cfg : Config) : State → Prop
  | reset : Reachable cfg (State.resetWith cfg)
  | offer (s : State) (ws : List OpWord) (h : Reachable cfg s) : Reachable cfg { s with port := s.port ++ ws }
  | step (s t : State) (h : Reachable cfg s) (e : step s = .next t) : Reachable cfg t
  | resetEvent (s : State) (h : Reachable cfg s) : Reachable cfg (applyReset s)

end Sys2Proof.Machine
end

