-- ==== Sys2Proof/Certificates/Slice0/Obligations.lean ====
section
/-! DEFINITION. The statements for the provers. The helpers of `Sys2Proof.Claims` restate the spec's own functions
(the source's `build_command`, the checksum, big-endian order) apart from the model's definitions. -/

namespace Sys2Proof.Claims

open Sys2Proof.Machine

/-- `k` steps of the machine, ending at the first fault or refusal. -/
def runSteps : Nat → State → StepOutcome
  | 0, s => .next s
  | k + 1, s =>
    match step s with
    | .next t => runSteps k t
    | .fault r => .fault r
    | .refused r => .refused r

/-- The words of a list of operations, in order. -/
def opWords (is : List Instr) : List OpWord := is.map encode

/-- The words by which the byte source delivers bytes (30_encoding.md R80). -/
def byteWords (xs : List Byte) : List OpWord := opWords (xs.map Instr.rxByte)

/-- The words of a list of byte-source answers. -/
def eventWords (es : List SourceEvent) : List OpWord := opWords (es.map sourceOp)

/-- A sum of bytes modulo 65536 (30_encoding.md R73). -/
def sumMod (xs : List Byte) : Nat := (xs.map BitVec.toNat).sum % 65536

/-- A 2-byte field, high byte first (20_memory.md R53). -/
def bigEndian (v : Nat) : List Byte := [BitVec.ofNat 8 (v / 256), BitVec.ofNat 8 (v % 256)]

/-- The source's `build_command` step by step (40_frame_codec.md R103, the quoted steps; R104). -/
def buildCommand (sync addr c : Byte) (p : List Byte) : List Byte :=
  let body := [sync, addr, c] ++ bigEndian (2 + p.length) ++ p
  body ++ bigEndian (sumMod body)

/-- A valid frame with these direction constants (30_encoding.md R71 to R73, R76). -/
def ValidFrame (sync addr : Byte) (f : List Byte) : Prop :=
  ∃ c p, p.length ≤ 65533 ∧ f = buildCommand sync addr c p

/-- The conditions of 41_response_reader.md R140 on the noise before `f`: (a) the budget, (b) by policy. -/
def NoiseTolerated (cfg : Config) (noise f rest : List Byte) : Prop :=
  noise.length + 1 ≤ cfg.maxResyncBytes.toNat ∧
  (cfg.addrPolicy = .failFast → cfg.syncIn ∉ noise) ∧
  (cfg.addrPolicy = .resync →
    ∀ i, i < noise.length →
      ¬((noise ++ f ++ rest)[i]? = some cfg.syncIn ∧ (noise ++ f ++ rest)[i + 1]? = some cfg.addrIn))

/-- `f` with bit `k` of byte `j` flipped (41_response_reader.md R141). -/
def flipBit (f : List Byte) (j k : Nat) : List Byte := f.modify j fun b => b ^^^ BitVec.ofNat 8 (2 ^ k)

/-- The largest number of source events one invocation takes (41_response_reader.md R139). -/
def eventBound (cfg : Config) : Nat :=
  if cfg.maxResyncBytes = 0#32 then 0 else cfg.maxResyncBytes.toNat + 1 + 65538

end Sys2Proof.Claims

open Sys2Proof Sys2Proof.Machine Sys2Proof.Claims

/-! ### Encoding (30_encoding.md) -/

/-- R79, R80, R83: a word decodes to an operation exactly when it is that operation's encoding. -/
def Obligations.DecodeAndEncodeAgree : Prop :=
  ∀ (w : OpWord) (i : Instr), decode w = .instr i ↔ w = encode i

/-- R82: the reserved words, listed as the rule lists them, are refused by name; every other word is an operation. -/
def Obligations.ReservedWordsRefused : Prop :=
  ∀ (s : State) (w : OpWord) (rest : List OpWord), s.port = w :: rest →
    let op := w.toNat / 256
    let imm := w.toNat % 256
    let badOp := op = 0x00 ∨ (0x04 ≤ op ∧ op ≤ 0x07) ∨ (0x0A ≤ op ∧ op ≤ 0x0F) ∨ 0x14 ≤ op
    let badImm := (op = 0x03 ∨ op = 0x08 ∨ op = 0x10 ∨ op = 0x12) ∧ imm ≠ 0
    (badOp → step s = .refused .reservedOpcode) ∧
    (badImm → step s = .refused .reservedOperand) ∧
    (¬badOp → ¬badImm → ∃ i, decode w = .instr i)

/-- R22, R80, R82: an offer is well-formed exactly when its word decodes to an operation of the offering agent. -/
def Obligations.WellFormedOffersDecode : Prop :=
  ∀ (a : Agent) (w : OpWord), offerWellFormed a w = true ↔ ∃ i, decode w = .instr i ∧ i.issuer = a

/-- A sanity statement: words written out from the tables of R80 and R84 decode to their operations. -/
def Obligations.WrittenWordsDecode : Prop :=
  decode 0b0000000100000010#16 = .instr (.txBegin 0x02#8) ∧
  decode 0b0000001011110100#16 = .instr (.txPush 0xF4#8) ∧
  decode 0b0000001100000000#16 = .instr .txEnd ∧
  decode 0b0000100110100101#16 = .instr (.csumAdd 0xA5#8) ∧
  decode 0b0001000110100110#16 = .instr (.rxByte 0xA6#8) ∧
  decode 0b0001001000000000#16 = .instr .rxUnderrun ∧
  decode 0b0001001100000101#16 = .instr (.rxChfault 0x05#8)

/-- The codes of the state and outcome registers (10_state.md R25, R30, R33; 60_exceptions.md R160), and the reading
states as the codes 1 to 8 (R30). -/
def Obligations.RegisterCodes : Prop :=
  [TxState.idle, .build].map TxState.code = [0#1, 1#1] ∧
  [RxState.idle, .seekSync, .seekAddr, .hdrCmd, .lenHi, .lenLo, .payload, .chkHi, .chkLo, .done].map RxState.code
    = [0#4, 1#4, 2#4, 3#4, 4#4, 5#4, 6#4, 7#4, 8#4, 9#4] ∧
  [RxStatus.none, .busy, .ok, .noFrame, .underrun, .checksumMismatch, .addrMismatch, .lengthInvalid,
    .channelFault].map RxStatus.code = [0#4, 1#4, 2#4, 3#4, 4#4, 5#4, 6#4, 7#4, 8#4] ∧
  ∀ q : RxState, q.isReading = true ↔ 1 ≤ q.code.toNat ∧ q.code.toNat ≤ 8

/-- R84: the assembly line of an operation assembles to that operation. -/
def Obligations.AssemblyLineRoundTrip : Prop :=
  ∀ i : Instr, assembleLine (asmLine i) = some [i]

/-! ### The step (10_state.md R23; 20_memory.md R59) -/

/-- A step runs the operation that the word it takes decodes to, on the state without that word, and nothing else happens
around it (R23, R59). THE MODEL'S CHOICE (notes/assumptions/3.md): that offered words wait in a list and the step takes
the oldest, since R23 does not say how an offered word waits. -/
def Obligations.StepRunsDecodedOperation : Prop :=
  ∀ (s : State) (w : OpWord) (rest : List OpWord) (i : Instr), s.port = w :: rest → decode w = .instr i →
    step s = exec i { s with port := rest }

/-- THE MODEL'S CHOICE (notes/assumptions/4.md), read from 70_reset_and_hazards.md R188 and R190: with no operation
offered, a step changes nothing. -/
def Obligations.EmptyPortWaits : Prop :=
  ∀ s : State, s.port = [] → step s = .next s

/-! ### Frame builder (40_frame_codec.md) -/

/-- R101. -/
def Obligations.TxBeginEffect : Prop :=
  ∀ (c : Byte) (s : State), encode (.txBegin c) = 0x01#8 ++ c ∧
    (s.txState = .idle →
      exec (.txBegin c) s =
        .next { s with txCmd := c, txPayload := [], txFrame := [], txValid := false, txState := .build }) ∧
    (s.txState = .build → exec (.txBegin c) s = .refused .txBeginWhileBuilding)

/-- R102. Where both of its refusals apply (`TX_IDLE` with a full payload) the rule ranks neither, so this statement
leaves open which comes; `TxPushIdleBeforeFull` says what the model does there. -/
def Obligations.TxPushEffect : Prop :=
  ∀ (b : Byte) (s : State), encode (.txPush b) = 0x02#8 ++ b ∧
    (s.txState = .build → s.txPayload.length < 65533 →
      exec (.txPush b) s = .next { s with txPayload := s.txPayload ++ [b] }) ∧
    (s.txState = .build → s.txPayload.length = 65533 → exec (.txPush b) s = .refused .txPayloadFull) ∧
    (s.txState = .idle → s.txPayload.length ≠ 65533 → exec (.txPush b) s = .refused .txPushWhileIdle) ∧
    (s.txState = .idle → s.txPayload.length = 65533 →
      exec (.txPush b) s = .refused .txPushWhileIdle ∨ exec (.txPush b) s = .refused .txPayloadFull)

/-- THE MODEL'S CHOICE (notes/assumptions/19.md): in `TX_IDLE` with 65533 bytes still in `tx_payload`, where R102 has both
refusals apply and R172 ranks neither, `TX_PUSH` is refused `TX_PUSH_WHILE_IDLE`, as with any other payload. -/
def Obligations.TxPushIdleBeforeFull : Prop :=
  ∀ (b : Byte) (s : State), s.txState = .idle → exec (.txPush b) s = .refused .txPushWhileIdle

/-- R103, the pseudocode with `n`, `L`, `body` and `C` spelled out. -/
def Obligations.TxEndEffect : Prop :=
  ∀ s : State, encode .txEnd = 0x0300#16 ∧
    (s.txState = .build → s.txPayload.length ≤ 65533 →
      let n := s.txPayload.length
      let len : Half := BitVec.ofNat 16 (2 + n)
      let body := [s.cfg.syncOut, s.cfg.addrOut, s.txCmd, len.extractLsb' 8 8, len.extractLsb' 0 8] ++ s.txPayload
      let chk : Half := BitVec.ofNat 16 (body.map BitVec.toNat).sum
      len.toNat = 2 + n ∧
      exec .txEnd s =
        .next { s with
          txFrame := body ++ [chk.extractLsb' 8 8, chk.extractLsb' 0 8], txValid := true, txState := .idle }) ∧
    (s.txState = .idle → exec .txEnd s = .refused .txEndWhileIdle)

/-- R104: the words of `tx.frame c, p` build the source's `build_command(c, p)`. The fields of R101 to R103 that the
three operations write are the builder's; every field of the reader, the checksum unit and the parameters stays
(notes/assumptions/18.md for the rule's last sentence). -/
def Obligations.TxFrameBuildsCommand : Prop :=
  ∀ (c : Byte) (p : List Byte) (s : State) (rest : List OpWord), p.length ≤ 65533 → s.txState = .idle →
    s.port = opWords (expand (.txFrame c p)) ++ rest →
    runSteps (p.length + 2) s =
      .next { s with
        port := rest
        txState := .idle
        txCmd := c
        txPayload := p
        txFrame := buildCommand s.cfg.syncOut s.cfg.addrOut c p
        txValid := true }

/-- R105: the properties (a), (b), (c) of every frame `TX_END` writes. -/
def Obligations.BuiltFrameProperties : Prop :=
  ∀ s t : State, exec .txEnd s = .next t →
    let f := t.txFrame
    let n := f.length - 7
    7 ≤ f.length ∧ n = s.txPayload.length ∧
    sumMod (f.take (5 + n)) = (f.getD (5 + n) 0#8).toNat * 256 + (f.getD (6 + n) 0#8).toNat ∧
    (f.getD 3 0#8).toNat * 256 + (f.getD 4 0#8).toNat = 2 + n ∧
    f.getD 0 0#8 = s.cfg.syncOut ∧ f.getD 1 0#8 = s.cfg.addrOut ∧ f.getD 2 0#8 = t.txCmd ∧
    (f.drop 5).take n = s.txPayload

/-! ### Checksum unit (40_frame_codec.md) -/

/-- R106. -/
def Obligations.CsumClrEffect : Prop :=
  ∀ s : State, encode .csumClr = 0x0800#16 ∧ exec .csumClr s = .next { s with csumAcc := 0x0000#16 }

/-- R107. -/
def Obligations.CsumAddEffect : Prop :=
  ∀ (b : Byte) (s : State), encode (.csumAdd b) = 0x09#8 ++ b ∧
    exec (.csumAdd b) s =
      .next { s with csumAcc := BitVec.ofNat 16 ((s.csumAcc.toNat + b.toNat) % 65536) }

/-- R108: the words of `csum.seq xs` leave the source's `checksum(xs)`, its two bytes big-endian, whatever the order
of the bytes. -/
def Obligations.CsumSeqComputesChecksum : Prop :=
  ∀ (xs ys : List Byte) (s : State) (rest : List OpWord), ys.Perm xs →
    s.port = opWords (expand (.csumSeq ys)) ++ rest →
    let acc : Half := BitVec.ofNat 16 (sumMod xs)
    runSteps (xs.length + 1) s = .next { s with port := rest, csumAcc := acc } ∧
      bigEndian (sumMod xs) = [acc.extractLsb' 8 8, acc.extractLsb' 0 8]

/-! ### Response reader, one statement per rule (41_response_reader.md) -/

/-- R122. -/
def Obligations.RxStartEffect : Prop :=
  ∀ s : State, encode .rxStart = 0x1000#16 ∧
    (s.rxState = .idle ∨ s.rxState = .done →
      let fresh := { s with
        rxRaw := [], rxPayload := [], rxSum := 0#16, rxCmd := 0#8, rxLen := 0#16, rxRemaining := 0#16
        rxChkHi := 0#8, rxChk := 0#16, rxFrameValid := false, rxFaultCode := 0#8
        rxBudget := s.cfg.maxResyncBytes }
      (s.cfg.maxResyncBytes = 0#32 →
        exec .rxStart s = .next { fresh with rxState := .done, rxStatus := .noFrame, rxFrameValid := false }) ∧
      (s.cfg.maxResyncBytes ≠ 0#32 →
        exec .rxStart s = .next { fresh with rxState := .seekSync, rxStatus := .busy })) ∧
    (s.rxState.isReading = true → exec .rxStart s = .refused .rxStartWhileBusy)

/-- R121, R123, R135, R136: in a reading state every answer of the byte source is taken; with no request outstanding
it is refused. -/
def Obligations.SourceEventsEnabledWhenReading : Prop :=
  ∀ (e : SourceEvent) (s : State),
    (FramerInv s → s.rxState.isReading = true → ∃ t, exec (sourceOp e) s = .next t) ∧
    (s.rxState = .idle ∨ s.rxState = .done → exec (sourceOp e) s = .refused .rxEventNotReading) ∧
    ∀ b, encode (.rxByte b) = 0x11#8 ++ b

/-- R124, R125: the examination of a byte in `SEEK_SYNC`. -/
def Obligations.SeekSyncByteEffect : Prop :=
  ∀ (b : Byte) (s : State), s.rxState = .seekSync → 1 ≤ s.rxBudget.toNat →
    let k := s.rxBudget - 1#32
    k.toNat + 1 = s.rxBudget.toNat ∧
    (b = s.cfg.syncIn →
      exec (.rxByte b) s =
        .next { s with rxBudget := k, rxRaw := [b], rxSum := b.setWidth 16, rxState := .seekAddr }) ∧
    (b ≠ s.cfg.syncIn → k = 0#32 →
      exec (.rxByte b) s =
        .next { s with rxBudget := k, rxState := .done, rxStatus := .noFrame, rxFrameValid := false }) ∧
    (b ≠ s.cfg.syncIn → k ≠ 0#32 →
      exec (.rxByte b) s = .next { s with rxBudget := k, rxState := .seekSync })

/-- R126: the address byte spends no budget, and from `HDR_CMD` on no byte's effect depends on the budget. -/
def Obligations.AddressMatchEffect : Prop :=
  (∀ (b : Byte) (s : State), s.rxState = .seekAddr → b = s.cfg.addrIn →
    exec (.rxByte b) s =
      .next { s with
        rxRaw := s.rxRaw ++ [b]
        rxSum := BitVec.ofNat 16 ((s.rxSum.toNat + b.toNat) % 65536)
        rxState := .hdrCmd }) ∧
  ∀ (b : Byte) (s t : State) (k : Budget), 3 ≤ s.rxState.code.toNat → exec (.rxByte b) s = .next t →
    exec (.rxByte b) { s with rxBudget := k } = .next { t with rxBudget := k }

/-- R127. -/
def Obligations.AddressMismatchFailFast : Prop :=
  ∀ (b : Byte) (s : State), s.rxState = .seekAddr → b ≠ s.cfg.addrIn → s.cfg.addrPolicy = .failFast →
    exec (.rxByte b) s = .next { s with rxState := .done, rxStatus := .addrMismatch, rxFrameValid := false }

/-- R128: `NO_FRAME` with the budget already 0, else the mismatching byte is examined on a fresh sum. -/
def Obligations.AddressMismatchResync : Prop :=
  ∀ (b : Byte) (s : State), s.rxState = .seekAddr → b ≠ s.cfg.addrIn → s.cfg.addrPolicy = .resync →
    let k := s.rxBudget - 1#32
    (s.rxBudget = 0#32 →
      exec (.rxByte b) s =
        .next { s with
          rxRaw := [], rxSum := 0#16, rxState := .done, rxStatus := .noFrame, rxFrameValid := false }) ∧
    (s.rxBudget ≠ 0#32 → b = s.cfg.syncIn →
      exec (.rxByte b) s =
        .next { s with rxBudget := k, rxRaw := [b], rxSum := b.setWidth 16, rxState := .seekAddr }) ∧
    (s.rxBudget ≠ 0#32 → b ≠ s.cfg.syncIn → k = 0#32 →
      exec (.rxByte b) s =
        .next { s with
          rxBudget := k, rxRaw := [], rxSum := 0#16, rxState := .done, rxStatus := .noFrame
          rxFrameValid := false }) ∧
    (s.rxBudget ≠ 0#32 → b ≠ s.cfg.syncIn → k ≠ 0#32 →
      exec (.rxByte b) s =
        .next { s with rxBudget := k, rxRaw := [], rxSum := 0#16, rxState := .seekSync })

/-- R129: every byte is accepted as a command code. -/
def Obligations.CommandByteEffect : Prop :=
  ∀ (b : Byte) (s : State), s.rxState = .hdrCmd →
    exec (.rxByte b) s =
      .next { s with
        rxCmd := b
        rxRaw := s.rxRaw ++ [b]
        rxSum := BitVec.ofNat 16 ((s.rxSum.toNat + b.toNat) % 65536)
        rxState := .lenHi }

/-- R130. -/
def Obligations.LengthHighByteEffect : Prop :=
  ∀ (b : Byte) (s : State), s.rxState = .lenHi →
    exec (.rxByte b) s =
      .next { s with
        rxLen := BitVec.ofNat 16 (b.toNat * 256)
        rxRaw := s.rxRaw ++ [b]
        rxSum := BitVec.ofNat 16 ((s.rxSum.toNat + b.toNat) % 65536)
        rxState := .lenLo }

/-- R131: the boundary decision. -/
def Obligations.LengthLowByteEffect : Prop :=
  ∀ (b : Byte) (s : State), s.rxState = .lenLo →
    let len := s.rxLen.toNat / 256 * 256 + b.toNat
    let taken := { s with
      rxLen := BitVec.ofNat 16 len
      rxRaw := s.rxRaw ++ [b]
      rxSum := BitVec.ofNat 16 ((s.rxSum.toNat + b.toNat) % 65536) }
    (len < 2 →
      exec (.rxByte b) s =
        .next { taken with rxState := .done, rxStatus := .lengthInvalid, rxFrameValid := false }) ∧
    (len = 2 → exec (.rxByte b) s = .next { taken with rxRemaining := 0#16, rxState := .chkHi }) ∧
    (2 < len →
      exec (.rxByte b) s = .next { taken with rxRemaining := BitVec.ofNat 16 (len - 2), rxState := .payload })

/-- R132. -/
def Obligations.PayloadByteEffect : Prop :=
  ∀ (b : Byte) (s : State), s.rxState = .payload → 1 ≤ s.rxRemaining.toNat →
    let r := s.rxRemaining.toNat - 1
    exec (.rxByte b) s =
      .next { s with
        rxPayload := s.rxPayload ++ [b]
        rxRaw := s.rxRaw ++ [b]
        rxSum := BitVec.ofNat 16 ((s.rxSum.toNat + b.toNat) % 65536)
        rxRemaining := BitVec.ofNat 16 r
        rxState := if r = 0 then .chkHi else .payload }

/-- R133: the sum is not changed. -/
def Obligations.ChecksumHighByteEffect : Prop :=
  ∀ (b : Byte) (s : State), s.rxState = .chkHi →
    exec (.rxByte b) s = .next { s with rxChkHi := b, rxRaw := s.rxRaw ++ [b], rxState := .chkLo }

/-- R134: the validation. -/
def Obligations.ChecksumLowByteEffect : Prop :=
  ∀ (b : Byte) (s : State), s.rxState = .chkLo →
    let chk : Half := BitVec.ofNat 16 (s.rxChkHi.toNat * 256 + b.toNat)
    let taken := { s with rxChk := chk, rxRaw := s.rxRaw ++ [b] }
    (chk = s.rxSum →
      exec (.rxByte b) s = .next { taken with rxState := .done, rxStatus := .ok, rxFrameValid := true }) ∧
    (chk ≠ s.rxSum →
      exec (.rxByte b) s =
        .next { taken with rxState := .done, rxStatus := .checksumMismatch, rxFrameValid := false })

/-- R135. -/
def Obligations.RxUnderrunEffect : Prop :=
  ∀ s : State, encode .rxUnderrun = 0x1200#16 ∧
    (s.rxState.isReading = true →
      exec .rxUnderrun s = .next { s with rxState := .done, rxStatus := .underrun, rxFrameValid := false }) ∧
    (s.rxState = .idle ∨ s.rxState = .done → exec .rxUnderrun s = .refused .rxEventNotReading)

/-- R136. -/
def Obligations.RxChfaultEffect : Prop :=
  ∀ (c : Byte) (s : State), encode (.rxChfault c) = 0x13#8 ++ c ∧
    (s.rxState.isReading = true →
      exec (.rxChfault c) s =
        .next { s with rxFaultCode := c, rxState := .done, rxStatus := .channelFault, rxFrameValid := false }) ∧
    (s.rxState = .idle ∨ s.rxState = .done → exec (.rxChfault c) s = .refused .rxEventNotReading)

/-- 60_exceptions.md R172: the five priorities. -/
def Obligations.PriorityInsideOneOperation : Prop :=
  ∀ (b : Byte) (s : State),
    (s.rxState = .seekSync → b = s.cfg.syncIn → s.rxBudget = 1#32 →
      ∃ t, exec (.rxByte b) s = .next t ∧ t.rxState = .seekAddr ∧ t.rxBudget = 0#32) ∧
    (s.rxState = .seekAddr → s.cfg.addrPolicy = .resync → b ≠ s.cfg.addrIn → s.rxBudget = 0#32 →
      ∃ t, exec (.rxByte b) s = .next t ∧ t.rxState = .done ∧ t.rxStatus = .noFrame ∧ t.rxBudget = 0#32) ∧
    (s.rxState = .lenLo → s.rxLen.toNat / 256 * 256 + b.toNat < 2 →
      ∃ t, exec (.rxByte b) s = .next t ∧ t.rxState = .done ∧ t.rxStatus = .lengthInvalid ∧ t.rxChk = s.rxChk) ∧
    (s.rxState = .chkLo →
      ∃ t, exec (.rxByte b) s = .next t ∧ t.rxState = .done ∧ (t.rxStatus = .ok ∨ t.rxStatus = .checksumMismatch)) ∧
    (s.rxState = .idle ∨ s.rxState = .done → s.cfg.maxResyncBytes = 0#32 →
      ∃ t, exec .rxStart s = .next t ∧ t.rxState = .done ∧ t.rxStatus = .noFrame)

/-! ### Failure entry, return, refusals (60_exceptions.md) -/

/-- R167, R143: whatever ends an invocation either accepts the frame or is a failure entry, which leaves no valid
frame, writes `rx_fault_code` only for `CHANNEL_FAULT`, and touches no field of the other parts. -/
def Obligations.InvocationEndsInOutcome : Prop :=
  ∀ (i : Instr) (s t : State), s.rxState.isReading = true → exec i s = .next t → t.rxState = .done →
    SameBuilder s t ∧ SameChecksum s t ∧ SameEnvironment s t ∧
    ((t.rxStatus = .ok ∧ t.rxFrameValid = true ∧ t.rxFaultCode = s.rxFaultCode) ∨
      (t.rxStatus.isFailure = true ∧ t.rxFrameValid = false ∧
        (t.rxFaultCode = s.rxFaultCode ∨ t.rxStatus = .channelFault ∧ i = .rxChfault t.rxFaultCode)))

/-- R169: the only operation that leaves `RX_DONE` (or `RX_IDLE`) is `RX_START`, and every field of the outcome stays
until it comes. -/
def Obligations.OnlyRxStartLeavesDone : Prop :=
  ∀ (i : Instr) (s t : State), s.rxState = .done ∨ s.rxState = .idle → exec i s = .next t → i ≠ .rxStart →
    SameReader s t

/-- R170: an operation is refused exactly in the rows of the table (the reserved words are `ReservedWordsRefused`,
`OUTPUT_NOT_VALID` is `OutputsOnlyUnderTheirConditions`). THE MODEL'S CHOICE (notes/assumptions/19.md): in `TX_IDLE` with
65533 bytes pushed, where two rows apply, the reason is `TX_PUSH_WHILE_IDLE`. -/
def Obligations.RefusalsAreTheTable : Prop :=
  ∀ (i : Instr) (s : State) (r : Refusal), s.txPayload.length ≤ 65533 →
    (exec i s = .refused r ↔
      (∃ c, i = .txBegin c ∧ s.txState = .build ∧ r = .txBeginWhileBuilding) ∨
      (∃ b, i = .txPush b ∧ s.txState = .idle ∧ r = .txPushWhileIdle) ∨
      (∃ b, i = .txPush b ∧ s.txState = .build ∧ s.txPayload.length = 65533 ∧ r = .txPayloadFull) ∨
      (i = .txEnd ∧ s.txState = .idle ∧ r = .txEndWhileIdle) ∨
      (i = .rxStart ∧ s.rxState.isReading = true ∧ r = .rxStartWhileBusy) ∨
      (((∃ b, i = .rxByte b) ∨ i = .rxUnderrun ∨ ∃ c, i = .rxChfault c) ∧
        (s.rxState = .idle ∨ s.rxState = .done) ∧ r = .rxEventNotReading))

/-- R161: when `NO_FRAME` ends an invocation that took the bytes `xs`, the whole budget was spent, on exactly the
bytes consumed under `FAIL_FAST`, and on all of them or all but one under `RESYNC`. -/
def Obligations.NoFrameSpendsTheBudget : Prop :=
  ∀ (s t : State) (xs : List Byte) (rest : List OpWord), s.rxState = .idle ∨ s.rxState = .done →
    s.port = encode .rxStart :: (byteWords xs ++ rest) → runSteps (1 + xs.length) s = .next t →
    t.rxStatus = .noFrame →
    t.rxBudget = 0#32 ∧
    (s.cfg.addrPolicy = .failFast → xs.length = s.cfg.maxResyncBytes.toNat) ∧
    (s.cfg.addrPolicy = .resync →
      xs.length = s.cfg.maxResyncBytes.toNat ∨ xs.length = s.cfg.maxResyncBytes.toNat + 1)

/-! ### What each operation leaves alone -/

/-- 40_frame_codec.md R109: an operation touches only the fields of its own part; none writes a parameter (10_state.md
R24) or the port. -/
def Obligations.OperationsTouchOnlyTheirPart : Prop :=
  ∀ (i : Instr) (s t : State), exec i s = .next t →
    SameEnvironment s t ∧
    (partOf i ≠ .builder → SameBuilder s t) ∧
    (partOf i ≠ .checksum → SameChecksum s t) ∧
    (partOf i ≠ .reader → SameReader s t)

/-- 10_state.md R25 to R40, each rule's list of who writes the field: by operation, for the reader's fields by reader state
too, and for `rx_status` and `rx_frame_valid` (R33, R34) `RX_START`, an entry to `RX_DONE`, and for the value 1 only the
successful `CHK_LO` step. -/
def Obligations.FieldsWrittenOnlyByTheirRules : Prop :=
  ∀ (i : Instr) (s t : State), exec i s = .next t →
    (t.txState ≠ s.txState → (∃ c, i = .txBegin c) ∨ i = .txEnd) ∧
    (t.txCmd ≠ s.txCmd → ∃ c, i = .txBegin c) ∧
    (t.txPayload ≠ s.txPayload → (∃ c, i = .txBegin c) ∨ ∃ b, i = .txPush b) ∧
    (t.txFrame ≠ s.txFrame ∨ t.txValid ≠ s.txValid → (∃ c, i = .txBegin c) ∨ i = .txEnd) ∧
    (t.csumAcc ≠ s.csumAcc → i = .csumClr ∨ ∃ b, i = .csumAdd b) ∧
    (t.rxBudget ≠ s.rxBudget →
      i = .rxStart ∨ ∃ b, i = .rxByte b ∧ (s.rxState = .seekSync ∨ s.rxState = .seekAddr)) ∧
    (t.rxSum ≠ s.rxSum → i = .rxStart ∨ ∃ b, i = .rxByte b ∧ s.rxState ≠ .chkHi ∧ s.rxState ≠ .chkLo) ∧
    (t.rxFaultCode ≠ s.rxFaultCode → i = .rxStart ∨ ∃ c, i = .rxChfault c) ∧
    (t.rxCmd ≠ s.rxCmd → i = .rxStart ∨ ∃ b, i = .rxByte b ∧ s.rxState = .hdrCmd) ∧
    (t.rxLen ≠ s.rxLen → i = .rxStart ∨ ∃ b, i = .rxByte b ∧ (s.rxState = .lenHi ∨ s.rxState = .lenLo)) ∧
    (t.rxRemaining ≠ s.rxRemaining →
      i = .rxStart ∨ ∃ b, i = .rxByte b ∧ (s.rxState = .lenLo ∨ s.rxState = .payload)) ∧
    (t.rxChkHi ≠ s.rxChkHi → i = .rxStart ∨ ∃ b, i = .rxByte b ∧ s.rxState = .chkHi) ∧
    (t.rxChk ≠ s.rxChk → i = .rxStart ∨ ∃ b, i = .rxByte b ∧ s.rxState = .chkLo) ∧
    (t.rxPayload ≠ s.rxPayload → i = .rxStart ∨ ∃ b, i = .rxByte b ∧ s.rxState = .payload) ∧
    (t.rxRaw ≠ s.rxRaw → i = .rxStart ∨ ∃ b, i = .rxByte b) ∧
    (t.rxState ≠ s.rxState → partOf i = .reader) ∧
    (t.rxStatus ≠ s.rxStatus → i = .rxStart ∨ partOf i = .reader ∧ t.rxState = .done) ∧
    (t.rxFrameValid ≠ s.rxFrameValid →
      (i = .rxStart ∧ t.rxFrameValid = false) ∨
      (partOf i = .reader ∧ t.rxState = .done ∧ t.rxStatus.isFailure = true ∧ t.rxFrameValid = false) ∨
      ∃ b, i = .rxByte b ∧ s.rxState = .chkLo ∧ t.rxStatus = .ok ∧ t.rxFrameValid = true)

/-- 10_state.md R31: `RX_START` loads the budget, an examination subtracts 1 without wrapping, nothing else writes it. -/
def Obligations.BudgetNeverWraps : Prop :=
  ∀ (i : Instr) (s t : State), exec i s = .next t →
    (i = .rxStart ∧ t.rxBudget = s.cfg.maxResyncBytes) ∨ t.rxBudget = s.rxBudget ∨
      t.rxBudget.toNat + 1 = s.rxBudget.toNat

/-- 20_memory.md R59, 40_frame_codec.md R109: two operations of different parts can be taken in either order. -/
def Obligations.OperationsOfDifferentPartsCommute : Prop :=
  ∀ (i j : Instr) (s t u : State), partOf i ≠ partOf j → exec i s = .next t → exec j t = .next u →
    ∃ v, exec j s = .next v ∧ exec i v = .next u

/-! ### Invariants -/

/-- Every step keeps the full invariant, from every state that meets it. -/
def Obligations.StepKeepsInvariant : Prop :=
  ∀ s t : State, FramerInv s → step s = .next t → FramerInv t

/-- The invariant holds after reset, for every instance, and after a reset event in any state (70_reset_and_hazards.md
R180). -/
def Obligations.ResetMeetsInvariant : Prop :=
  (∀ cfg : Config, FramerInv (State.resetWith cfg)) ∧ ∀ s : State, FramerInv (applyReset s)

/-- 10_state.md R44, in every state an instance can be in. -/
def Obligations.ReaderInvariantsAlwaysHold : Prop :=
  ∀ (cfg : Config) (s : State), Reachable cfg s → s.cfg = cfg ∧ ReaderInvariants s

/-- From a state that meets the invariant no step faults. THE MODEL'S CHOICE (notes/assumptions/5.md): the spec has no
faults; the model has three, where a precondition that R31 and R124, R132, or R102 and R103 guarantee is false, and this
says that they stand outside every run. -/
def Obligations.NoFaultUnderInvariant : Prop :=
  ∀ s : State, FramerInv s → noFault (step s) = true

/-- 00_scope.md R13, 10_state.md R27, R28, R39, R40: the capacities. -/
def Obligations.SequencesStayWithinCapacity : Prop :=
  ∀ (cfg : Config) (s : State), Reachable cfg s →
    s.txPayload.length ≤ 65533 ∧
    (s.txFrame.length = 0 ∨ 7 ≤ s.txFrame.length ∧ s.txFrame.length ≤ 65540) ∧
    s.rxPayload.length ≤ 65533 ∧ s.rxRaw.length ≤ 65540

/-- 41_response_reader.md R137: the running sum is the recomputed checksum. -/
def Obligations.RunningSumIsRecomputedChecksum : Prop :=
  ∀ (cfg : Config) (s : State), Reachable cfg s → s.rxState = .chkHi ∨ s.rxState = .chkLo →
    s.rxSum.toNat =
      sumMod ([s.cfg.syncIn, s.cfg.addrIn, s.rxCmd, s.rxLen.extractLsb' 8 8, s.rxLen.extractLsb' 0 8] ++ s.rxPayload)

/-! ### Whole invocations (41_response_reader.md) -/

/-- R138 (a) to (d), for an invocation that took the bytes `xs`. -/
def Obligations.AcceptedFrameIsWellFormed : Prop :=
  ∀ (s t : State) (xs : List Byte) (rest : List OpWord), s.rxState = .idle ∨ s.rxState = .done →
    s.port = encode .rxStart :: (byteWords xs ++ rest) → runSteps (1 + xs.length) s = .next t →
    t.rxStatus = .ok →
    t.rxRaw = [s.cfg.syncIn, s.cfg.addrIn, t.rxCmd, t.rxLen.extractLsb' 8 8, t.rxLen.extractLsb' 0 8]
        ++ t.rxPayload ++ [t.rxChk.extractLsb' 8 8, t.rxChk.extractLsb' 0 8] ∧
    t.rxPayload.length + 2 = t.rxLen.toNat ∧ t.rxRaw.length = t.rxLen.toNat + 5 ∧
    t.rxChk.toNat = sumMod (t.rxRaw.take (t.rxRaw.length - 2)) ∧
    (∃ noise, xs = noise ++ t.rxRaw) ∧ t.port = rest ∧
    t.rxPayload.length ≤ 65533 ∧ t.rxRaw.length ≤ 65540

/-- R139: whatever the byte source answers, an invocation has ended after at most `B + 1 + 65538` events, or after
none with `B = 0`. The answers stand on the port behind `RX_START`; `FairInvocationEnds` has them come when they come. -/
def Obligations.EveryInvocationEnds : Prop :=
  ∀ (s : State) (es : List SourceEvent) (rest : List OpWord), s.rxState = .idle ∨ s.rxState = .done →
    es.length = eventBound s.cfg → s.port = encode .rxStart :: (eventWords es ++ rest) →
    ∃ k t, k ≤ es.length ∧ runSteps (1 + k) s = .next t ∧ t.rxState = .done

/-- R139, R188: in a run where the agents and the platform take turns as they like (waits, host operations and resets
between the answers), an invocation ends if the byte source is weakly fair, after at most `B + 1 + 65538` answers, or
none with `B = 0`; without a reset it ends in `RX_DONE`. That a turn offers at most one operation and that the run never
stops are how the model states the environment (notes/assumptions/14.md). -/
def Obligations.FairInvocationEnds : Prop :=
  ∀ (turns : Nat → Turn) (states : Nat → State) (n : Nat), IsRun turns states → WeaklyFair turns states →
    turns n = .operation .rxStart →
    ∃ k, (states (n + 1 + k)).rxState.isReading = false ∧
      (∀ j, j < k → (states (n + 1 + j)).rxState.isReading = true) ∧
      answersIn turns (n + 1) k ≤ eventBound (states n).cfg ∧
      ((∀ j, j < k → turns (n + 1 + j) ≠ .reset) → (states (n + 1 + k)).rxState = .done)

/-- R140: a valid frame is found behind the noise, with exactly `noise ++ f` consumed and `m + 1` examinations. -/
def Obligations.ResyncOverNoise : Prop :=
  ∀ (s : State) (noise f rest : List Byte), s.rxState = .idle ∨ s.rxState = .done →
    ValidFrame s.cfg.syncIn s.cfg.addrIn f → NoiseTolerated s.cfg noise f rest →
    s.port = encode .rxStart :: byteWords (noise ++ f ++ rest) →
    ∃ t, runSteps (1 + (noise.length + f.length)) s = .next t ∧ t.rxState = .done ∧ t.rxStatus = .ok ∧
      t.rxFrameValid = true ∧ t.rxRaw = f ∧ t.port = byteWords rest ∧
      t.rxBudget.toNat + noise.length + 1 = s.cfg.maxResyncBytes.toNat

/-- R141: a frame with one bit flipped in its command code, payload or checksum field is rejected. -/
def Obligations.FlippedBitIsRejected : Prop :=
  ∀ (s : State) (noise f rest : List Byte) (j k : Nat), s.rxState = .idle ∨ s.rxState = .done →
    ValidFrame s.cfg.syncIn s.cfg.addrIn f → (j = 2 ∨ 5 ≤ j) → j < f.length → k < 8 →
    NoiseTolerated s.cfg noise (flipBit f j k) rest →
    s.port = encode .rxStart :: byteWords (noise ++ flipBit f j k ++ rest) →
    ∃ t, runSteps (1 + (noise.length + f.length)) s = .next t ∧ t.rxState = .done ∧
      t.rxStatus = .checksumMismatch ∧ t.rxFrameValid = false ∧ t.port = byteWords rest

/-- R142: with no sync byte among the first `B` bytes the invocation ends `NO_FRAME` after exactly those bytes; with
fewer bytes and then an underrun it ends `UNDERRUN`. -/
def Obligations.BudgetExhaustionEndsNoFrame : Prop :=
  ∀ (s : State) (xs : List Byte) (rest : List OpWord), s.rxState = .idle ∨ s.rxState = .done →
    s.cfg.syncIn ∉ xs →
    (xs.length = s.cfg.maxResyncBytes.toNat → s.port = encode .rxStart :: (byteWords xs ++ rest) →
      (∃ t, runSteps (1 + xs.length) s = .next t ∧ t.rxState = .done ∧ t.rxStatus = .noFrame ∧ t.port = rest) ∧
      ∀ k, k < xs.length → ∃ u, runSteps (1 + k) s = .next u ∧ u.rxState.isReading = true) ∧
    (xs.length < s.cfg.maxResyncBytes.toNat →
      s.port = encode .rxStart :: (byteWords xs ++ encode .rxUnderrun :: rest) →
      ∃ t, runSteps (1 + xs.length + 1) s = .next t ∧ t.rxState = .done ∧ t.rxStatus = .underrun ∧ t.port = rest)

/-- R110: a built frame, fed byte by byte to the reader of an instance with equal constants, is accepted. -/
def Obligations.BuiltFrameIsAccepted : Prop :=
  ∀ (c : Byte) (p : List Byte) (s : State) (rest : List OpWord), p.length ≤ 65533 → s.txState = .idle →
    s.rxState = .idle ∨ s.rxState = .done → s.cfg.syncOut = s.cfg.syncIn → s.cfg.addrOut = s.cfg.addrIn →
    1 ≤ s.cfg.maxResyncBytes.toNat →
    s.port = opWords (expand (.txFrame c p)) ++
      encode .rxStart :: (byteWords (buildCommand s.cfg.syncOut s.cfg.addrOut c p) ++ rest) →
    ∃ t, runSteps (p.length + 2 + (1 + (p.length + 7))) s = .next t ∧ t.rxStatus = .ok ∧ t.rxRaw = t.txFrame ∧
      t.txFrame = buildCommand s.cfg.syncOut s.cfg.addrOut c p ∧ t.rxCmd = c ∧ t.rxPayload = p ∧ t.port = rest

/-- THE MODEL'S CHOICE (notes/assumptions/17.md), made for 20_memory.md R51 and R57: the channel stands outside the state,
and the pull interface `serve` hands its answers to the reader. It takes the same steps as the machine over the same
answers, and what it leaves in the channel was never asked for. -/
def Obligations.PullInterfaceAgreesWithSteps : Prop :=
  ∀ (s : State) (es : List SourceEvent) (rest : List OpWord), FramerInv s → s.port = eventWords es ++ rest →
    ∃ used, es = used ++ (serve es s).left ∧
      runSteps used.length s = .next { (serve es s).state with port := eventWords (serve es s).left ++ rest } ∧
      ((serve es s).left ≠ [] → (serve es s).state.rxState.isReading = false)

/-! ### Observation and reset -/

/-- 10_state.md R41, 60_exceptions.md R170: each output has a value exactly under its condition, the value of its
field; otherwise none, and the read is refused `OUTPUT_NOT_VALID`. -/
def Obligations.OutputsOnlyUnderTheirConditions : Prop :=
  ∀ s : State,
    observe .rxState s = some (.rxState s.rxState) ∧ observe .rxStatus s = some (.rxStatus s.rxStatus) ∧
    observe .txState s = some (.txState s.txState) ∧ observe .csumAcc s = some (.half s.csumAcc) ∧
    (s.rxStatus = .channelFault → observe .rxFaultCode s = some (.byte s.rxFaultCode)) ∧
    (s.rxStatus ≠ .channelFault →
      observe .rxFaultCode s = none ∧ readOutput .rxFaultCode s = .refused .outputNotValid) ∧
    (s.txValid = true → observe .txFrame s = some (.bytes s.txFrame)) ∧
    (s.txValid = false → observe .txFrame s = none ∧ readOutput .txFrame s = .refused .outputNotValid) ∧
    (s.rxFrameValid = true →
      observe .rxRaw s = some (.bytes s.rxRaw) ∧ observe .rxCmd s = some (.byte s.rxCmd) ∧
      observe .rxPayload s = some (.bytes s.rxPayload) ∧ observe .rxLen s = some (.half s.rxLen) ∧
      observe .rxChk s = some (.half s.rxChk) ∧ observeFrame s = some ⟨s.rxRaw, s.rxCmd, s.rxPayload⟩) ∧
    (s.rxFrameValid = false →
      (∀ o, o = .rxRaw ∨ o = .rxCmd ∨ o = .rxPayload ∨ o = .rxLen ∨ o = .rxChk →
        observe o s = none ∧ readOutput o s = .refused .outputNotValid) ∧ observeFrame s = none)

/-- 10_state.md R42: the hidden fields, and the frame fields outside their condition, reach no output. -/
def Obligations.HiddenStateReachesNoOutput : Prop :=
  ∀ (s : State) (o : Output) (budget : Budget) (sum rem len chk : Half) (chkHi txc cmd : Byte)
    (txp raw pay : List Byte),
    observe o { s with
      rxBudget := budget, rxSum := sum, rxRemaining := rem, rxChkHi := chkHi, txCmd := txc, txPayload := txp }
      = observe o s ∧
    (s.rxFrameValid = false →
      observe o { s with rxRaw := raw, rxPayload := pay, rxCmd := cmd, rxLen := len, rxChk := chk } = observe o s)

/-- 41_response_reader.md R143: after every failure no part of the frame is observable. -/
def Obligations.FailureHidesTheFrame : Prop :=
  ∀ (cfg : Config) (s : State) (o : Output), Reachable cfg s → s.rxStatus.isFailure = true →
    o = .rxRaw ∨ o = .rxCmd ∨ o = .rxPayload ∨ o = .rxLen ∨ o = .rxChk →
    s.rxState = .done ∧ s.rxFrameValid = false ∧ observe o s = none

/-- 60_exceptions.md R173: the host sees the end of an invocation in `rx_status`, equivalently in `rx_state`. -/
def Obligations.PollingSeesTheEnd : Prop :=
  ∀ (cfg : Config) (s : State), Reachable cfg s → (invocationEnded s = true ↔ s.rxState = .done)

/-- 10_state.md R43: the complete list, whatever the state was (70_reset_and_hazards.md R180). -/
def Obligations.ResetValues : Prop :=
  ∀ s t : State, t = applyReset s ∨ t = State.resetWith s.cfg →
    t.txState = .idle ∧ t.txCmd = 0x00#8 ∧ t.txPayload = [] ∧ t.txFrame = [] ∧ t.txValid = false ∧
    t.csumAcc = 0x0000#16 ∧ t.rxState = .idle ∧ t.rxStatus = .none ∧ t.rxBudget = 0#32 ∧ t.rxSum = 0x0000#16 ∧
    t.rxFrameValid = false ∧ t.rxFaultCode = 0x00#8 ∧ t.rxCmd = 0x00#8 ∧ t.rxLen = 0x0000#16 ∧
    t.rxRemaining = 0x0000#16 ∧ t.rxChkHi = 0x00#8 ∧ t.rxChk = 0x0000#16 ∧ t.rxPayload = [] ∧ t.rxRaw = [] ∧
    t.cfg = s.cfg

/-- 70_reset_and_hazards.md R181: what is enabled after reset, and how the rest is refused. -/
def Obligations.EnabledAfterReset : Prop :=
  ∀ (cfg : Config) (b : Byte),
    let s := State.resetWith cfg
    (∃ t, exec (.txBegin b) s = .next t) ∧ (∃ t, exec .csumClr s = .next t) ∧
    (∃ t, exec (.csumAdd b) s = .next t) ∧ (∃ t, exec .rxStart s = .next t) ∧
    exec (.txPush b) s = .refused .txPushWhileIdle ∧ exec .txEnd s = .refused .txEndWhileIdle ∧
    exec (.rxByte b) s = .refused .rxEventNotReading ∧ exec .rxUnderrun s = .refused .rxEventNotReading ∧
    exec (.rxChfault b) s = .refused .rxEventNotReading
end

