-- ==== Sys2Proof/Laws/Frame.lean ====
section
/-! SUPPORT. The checksum over appended bytes, and the shape of a built frame. -/

namespace Sys2Proof.Machine

@[simp] theorem sum16_nil : sum16 [] = 0#16 := rfl

theorem sum16_append (xs ys : List Byte) : sum16 (xs ++ ys) = sum16 xs + sum16 ys := by
  simp [sum16, BitVec.ofNat_add]

theorem sum16_singleton (b : Byte) : sum16 [b] = zext16 b := by
  apply BitVec.eq_of_toNat_eq
  have h := b.isLt
  rw [zext16_toNat]
  simp only [sum16, List.map_cons, List.map_nil, List.sum_cons, List.sum_nil, BitVec.toNat_ofNat]
  omega

/-- The incremental sum is the recomputed one: one more byte adds its zero-extended value. -/
theorem sum16_concat (xs : List Byte) (b : Byte) : sum16 (xs ++ [b]) = sum16 xs + zext16 b := by
  rw [sum16_append, sum16_singleton]

theorem sum16_toNat (xs : List Byte) : (sum16 xs).toNat = (xs.map BitVec.toNat).sum % 65536 := by
  simp [sum16]

theorem sum16_perm {xs ys : List Byte} (h : xs.Perm ys) : sum16 xs = sum16 ys := by
  rw [sum16, sum16, (h.map BitVec.toNat).sum_eq]

theorem lengthField_toNat {n : Nat} (h : n ≤ maxPayload) : (lengthField n).toNat = 2 + n := by
  unfold maxPayload at h
  simp only [lengthField, BitVec.toNat_ofNat]
  omega

@[simp] theorem frameBodyWith_length (sync addr cmd : Byte) (len : Half) (p : List Byte) :
    (frameBodyWith sync addr cmd len p).length = p.length + 5 := by
  simp [frameBodyWith]

@[simp] theorem frame_length (sync addr cmd : Byte) (p : List Byte) :
    (frame sync addr cmd p).length = p.length + 7 := by
  simp [frame, withChecksum, frameBody]

/-- One more payload byte goes at the end of the checksummed bytes. -/
theorem frameBodyWith_concat (sync addr cmd : Byte) (len : Half) (p : List Byte) (b : Byte) :
    frameBodyWith sync addr cmd len (p ++ [b]) = frameBodyWith sync addr cmd len p ++ [b] := by
  simp [frameBodyWith]

end Sys2Proof.Machine
end

