-- ==== Sys2Proof/Laws/State.lean ====
section
/-! SUPPORT. One lemma per field per shared update, so that no proof unfolds an update of the record. -/

namespace Sys2Proof.Machine

/-! ### `raiseFailure` -/

@[simp] theorem raiseFailure_cfg (k : Failure) (s : State) : (raiseFailure k s).cfg = s.cfg := rfl
@[simp] theorem raiseFailure_port (k : Failure) (s : State) : (raiseFailure k s).port = s.port := rfl
@[simp] theorem raiseFailure_txState (k : Failure) (s : State) : (raiseFailure k s).txState = s.txState := rfl
@[simp] theorem raiseFailure_txCmd (k : Failure) (s : State) : (raiseFailure k s).txCmd = s.txCmd := rfl
@[simp] theorem raiseFailure_txPayload (k : Failure) (s : State) : (raiseFailure k s).txPayload = s.txPayload := rfl
@[simp] theorem raiseFailure_txFrame (k : Failure) (s : State) : (raiseFailure k s).txFrame = s.txFrame := rfl
@[simp] theorem raiseFailure_txValid (k : Failure) (s : State) : (raiseFailure k s).txValid = s.txValid := rfl
@[simp] theorem raiseFailure_csumAcc (k : Failure) (s : State) : (raiseFailure k s).csumAcc = s.csumAcc := rfl
@[simp] theorem raiseFailure_rxState (k : Failure) (s : State) : (raiseFailure k s).rxState = .done := rfl
@[simp] theorem raiseFailure_rxStatus (k : Failure) (s : State) : (raiseFailure k s).rxStatus = k.status := rfl
@[simp] theorem raiseFailure_rxBudget (k : Failure) (s : State) : (raiseFailure k s).rxBudget = s.rxBudget := rfl
@[simp] theorem raiseFailure_rxSum (k : Failure) (s : State) : (raiseFailure k s).rxSum = s.rxSum := rfl
@[simp] theorem raiseFailure_rxFrameValid (k : Failure) (s : State) : (raiseFailure k s).rxFrameValid = false := rfl
@[simp] theorem raiseFailure_rxFaultCode (k : Failure) (s : State) : (raiseFailure k s).rxFaultCode = k.faultCode s.rxFaultCode := rfl
@[simp] theorem raiseFailure_rxCmd (k : Failure) (s : State) : (raiseFailure k s).rxCmd = s.rxCmd := rfl
@[simp] theorem raiseFailure_rxLen (k : Failure) (s : State) : (raiseFailure k s).rxLen = s.rxLen := rfl
@[simp] theorem raiseFailure_rxRemaining (k : Failure) (s : State) : (raiseFailure k s).rxRemaining = s.rxRemaining := rfl
@[simp] theorem raiseFailure_rxChkHi (k : Failure) (s : State) : (raiseFailure k s).rxChkHi = s.rxChkHi := rfl
@[simp] theorem raiseFailure_rxChk (k : Failure) (s : State) : (raiseFailure k s).rxChk = s.rxChk := rfl
@[simp] theorem raiseFailure_rxPayload (k : Failure) (s : State) : (raiseFailure k s).rxPayload = s.rxPayload := rfl
@[simp] theorem raiseFailure_rxRaw (k : Failure) (s : State) : (raiseFailure k s).rxRaw = s.rxRaw := rfl

/-! ### `clearReader` -/

@[simp] theorem clearReader_cfg (s : State) : (clearReader s).cfg = s.cfg := rfl
@[simp] theorem clearReader_port (s : State) : (clearReader s).port = s.port := rfl
@[simp] theorem clearReader_txState (s : State) : (clearReader s).txState = s.txState := rfl
@[simp] theorem clearReader_txCmd (s : State) : (clearReader s).txCmd = s.txCmd := rfl
@[simp] theorem clearReader_txPayload (s : State) : (clearReader s).txPayload = s.txPayload := rfl
@[simp] theorem clearReader_txFrame (s : State) : (clearReader s).txFrame = s.txFrame := rfl
@[simp] theorem clearReader_txValid (s : State) : (clearReader s).txValid = s.txValid := rfl
@[simp] theorem clearReader_csumAcc (s : State) : (clearReader s).csumAcc = s.csumAcc := rfl
@[simp] theorem clearReader_rxState (s : State) : (clearReader s).rxState = s.rxState := rfl
@[simp] theorem clearReader_rxStatus (s : State) : (clearReader s).rxStatus = s.rxStatus := rfl
@[simp] theorem clearReader_rxBudget (s : State) : (clearReader s).rxBudget = s.cfg.maxResyncBytes := rfl
@[simp] theorem clearReader_rxSum (s : State) : (clearReader s).rxSum = 0x0000#16 := rfl
@[simp] theorem clearReader_rxFrameValid (s : State) : (clearReader s).rxFrameValid = false := rfl
@[simp] theorem clearReader_rxFaultCode (s : State) : (clearReader s).rxFaultCode = 0x00#8 := rfl
@[simp] theorem clearReader_rxCmd (s : State) : (clearReader s).rxCmd = 0x00#8 := rfl
@[simp] theorem clearReader_rxLen (s : State) : (clearReader s).rxLen = 0x0000#16 := rfl
@[simp] theorem clearReader_rxRemaining (s : State) : (clearReader s).rxRemaining = 0x0000#16 := rfl
@[simp] theorem clearReader_rxChkHi (s : State) : (clearReader s).rxChkHi = 0x00#8 := rfl
@[simp] theorem clearReader_rxChk (s : State) : (clearReader s).rxChk = 0x0000#16 := rfl
@[simp] theorem clearReader_rxPayload (s : State) : (clearReader s).rxPayload = [] := rfl
@[simp] theorem clearReader_rxRaw (s : State) : (clearReader s).rxRaw = [] := rfl

/-! ### `addFrameByte` -/

@[simp] theorem addFrameByte_cfg (b : Byte) (s : State) : (addFrameByte b s).cfg = s.cfg := rfl
@[simp] theorem addFrameByte_port (b : Byte) (s : State) : (addFrameByte b s).port = s.port := rfl
@[simp] theorem addFrameByte_txState (b : Byte) (s : State) : (addFrameByte b s).txState = s.txState := rfl
@[simp] theorem addFrameByte_txCmd (b : Byte) (s : State) : (addFrameByte b s).txCmd = s.txCmd := rfl
@[simp] theorem addFrameByte_txPayload (b : Byte) (s : State) : (addFrameByte b s).txPayload = s.txPayload := rfl
@[simp] theorem addFrameByte_txFrame (b : Byte) (s : State) : (addFrameByte b s).txFrame = s.txFrame := rfl
@[simp] theorem addFrameByte_txValid (b : Byte) (s : State) : (addFrameByte b s).txValid = s.txValid := rfl
@[simp] theorem addFrameByte_csumAcc (b : Byte) (s : State) : (addFrameByte b s).csumAcc = s.csumAcc := rfl
@[simp] theorem addFrameByte_rxState (b : Byte) (s : State) : (addFrameByte b s).rxState = s.rxState := rfl
@[simp] theorem addFrameByte_rxStatus (b : Byte) (s : State) : (addFrameByte b s).rxStatus = s.rxStatus := rfl
@[simp] theorem addFrameByte_rxBudget (b : Byte) (s : State) : (addFrameByte b s).rxBudget = s.rxBudget := rfl
@[simp] theorem addFrameByte_rxSum (b : Byte) (s : State) : (addFrameByte b s).rxSum = s.rxSum + zext16 b := rfl
@[simp] theorem addFrameByte_rxFrameValid (b : Byte) (s : State) : (addFrameByte b s).rxFrameValid = s.rxFrameValid := rfl
@[simp] theorem addFrameByte_rxFaultCode (b : Byte) (s : State) : (addFrameByte b s).rxFaultCode = s.rxFaultCode := rfl
@[simp] theorem addFrameByte_rxCmd (b : Byte) (s : State) : (addFrameByte b s).rxCmd = s.rxCmd := rfl
@[simp] theorem addFrameByte_rxLen (b : Byte) (s : State) : (addFrameByte b s).rxLen = s.rxLen := rfl
@[simp] theorem addFrameByte_rxRemaining (b : Byte) (s : State) : (addFrameByte b s).rxRemaining = s.rxRemaining := rfl
@[simp] theorem addFrameByte_rxChkHi (b : Byte) (s : State) : (addFrameByte b s).rxChkHi = s.rxChkHi := rfl
@[simp] theorem addFrameByte_rxChk (b : Byte) (s : State) : (addFrameByte b s).rxChk = s.rxChk := rfl
@[simp] theorem addFrameByte_rxPayload (b : Byte) (s : State) : (addFrameByte b s).rxPayload = s.rxPayload := rfl
@[simp] theorem addFrameByte_rxRaw (b : Byte) (s : State) : (addFrameByte b s).rxRaw = s.rxRaw ++ [b] := rfl

/-! ### `addChecksumByte` -/

@[simp] theorem addChecksumByte_cfg (b : Byte) (s : State) : (addChecksumByte b s).cfg = s.cfg := rfl
@[simp] theorem addChecksumByte_port (b : Byte) (s : State) : (addChecksumByte b s).port = s.port := rfl
@[simp] theorem addChecksumByte_txState (b : Byte) (s : State) : (addChecksumByte b s).txState = s.txState := rfl
@[simp] theorem addChecksumByte_txCmd (b : Byte) (s : State) : (addChecksumByte b s).txCmd = s.txCmd := rfl
@[simp] theorem addChecksumByte_txPayload (b : Byte) (s : State) : (addChecksumByte b s).txPayload = s.txPayload := rfl
@[simp] theorem addChecksumByte_txFrame (b : Byte) (s : State) : (addChecksumByte b s).txFrame = s.txFrame := rfl
@[simp] theorem addChecksumByte_txValid (b : Byte) (s : State) : (addChecksumByte b s).txValid = s.txValid := rfl
@[simp] theorem addChecksumByte_csumAcc (b : Byte) (s : State) : (addChecksumByte b s).csumAcc = s.csumAcc := rfl
@[simp] theorem addChecksumByte_rxState (b : Byte) (s : State) : (addChecksumByte b s).rxState = s.rxState := rfl
@[simp] theorem addChecksumByte_rxStatus (b : Byte) (s : State) : (addChecksumByte b s).rxStatus = s.rxStatus := rfl
@[simp] theorem addChecksumByte_rxBudget (b : Byte) (s : State) : (addChecksumByte b s).rxBudget = s.rxBudget := rfl
@[simp] theorem addChecksumByte_rxSum (b : Byte) (s : State) : (addChecksumByte b s).rxSum = s.rxSum := rfl
@[simp] theorem addChecksumByte_rxFrameValid (b : Byte) (s : State) : (addChecksumByte b s).rxFrameValid = s.rxFrameValid := rfl
@[simp] theorem addChecksumByte_rxFaultCode (b : Byte) (s : State) : (addChecksumByte b s).rxFaultCode = s.rxFaultCode := rfl
@[simp] theorem addChecksumByte_rxCmd (b : Byte) (s : State) : (addChecksumByte b s).rxCmd = s.rxCmd := rfl
@[simp] theorem addChecksumByte_rxLen (b : Byte) (s : State) : (addChecksumByte b s).rxLen = s.rxLen := rfl
@[simp] theorem addChecksumByte_rxRemaining (b : Byte) (s : State) : (addChecksumByte b s).rxRemaining = s.rxRemaining := rfl
@[simp] theorem addChecksumByte_rxChkHi (b : Byte) (s : State) : (addChecksumByte b s).rxChkHi = s.rxChkHi := rfl
@[simp] theorem addChecksumByte_rxChk (b : Byte) (s : State) : (addChecksumByte b s).rxChk = s.rxChk := rfl
@[simp] theorem addChecksumByte_rxPayload (b : Byte) (s : State) : (addChecksumByte b s).rxPayload = s.rxPayload := rfl
@[simp] theorem addChecksumByte_rxRaw (b : Byte) (s : State) : (addChecksumByte b s).rxRaw = s.rxRaw ++ [b] := rfl

end Sys2Proof.Machine
end

