-- ==== Sys2Proof/Laws/Ops.lean ====
section
/-! SUPPORT. For each shared operation and each meaning, one lemma that says once everything it can do when it answers
a next state. Proofs cite these and never unfold a meaning. -/

namespace Sys2Proof.Machine

variable {s t : State} {b c : Byte}

theorem answerRequest_next {e : StepOutcome} (h : answerRequest s e = .next t) :
    s.rxState.isReading = true ∧ e = .next t := by
  unfold answerRequest at h
  split at h
  · exact ⟨‹_›, h⟩
  · cases h

theorem execTxBegin_next (h : execTxBegin c s = .next t) :
    s.txState = .idle ∧
      t = { s with txCmd := c, txPayload := [], txFrame := [], txValid := false, txState := .build } := by
  unfold execTxBegin at h
  split at h
  · cases h
  · exact ⟨‹_›, by cases h; rfl⟩

theorem execTxPush_next (h : execTxPush b s = .next t) :
    s.txState = .build ∧ s.txPayload.length < maxPayload ∧
      t = { s with txPayload := s.txPayload ++ [b] } := by
  unfold execTxPush at h
  split at h
  · cases h
  · split at h
    · exact ⟨‹_›, ‹_›, by cases h; rfl⟩
    · cases h

theorem execTxEnd_next (h : execTxEnd s = .next t) :
    s.txState = .build ∧ s.txPayload.length ≤ maxPayload ∧
      t = { s with
        txFrame := frame s.cfg.syncOut s.cfg.addrOut s.txCmd s.txPayload
        txValid := true
        txState := .idle } := by
  unfold execTxEnd at h
  split at h
  · cases h
  · split at h
    · exact ⟨‹_›, ‹_›, by cases h; rfl⟩
    · cases h

theorem execCsumClr_next (h : execCsumClr s = .next t) : t = { s with csumAcc := 0x0000#16 } := by
  cases h; rfl

theorem execCsumAdd_next (h : execCsumAdd b s = .next t) :
    t = { s with csumAcc := s.csumAcc + zext16 b } := by
  cases h; rfl

theorem execRxStart_next (h : execRxStart s = .next t) :
    s.rxState.isReading = false ∧
      (s.cfg.maxResyncBytes = 0#32 ∧ t = raiseFailure .noFrame (clearReader s) ∨
        s.cfg.maxResyncBytes ≠ 0#32 ∧ t = { clearReader s with rxState := .seekSync, rxStatus := .busy }) := by
  unfold execRxStart at h
  split at h
  · cases h
  · refine ⟨Bool.eq_false_iff.mpr ‹¬ s.rxState.isReading = true›, ?_⟩
    split at h
    · exact .inl ⟨‹_›, by cases h; rfl⟩
    · exact .inr ⟨‹_›, by cases h; rfl⟩

/-- Everything one examination can do (41_response_reader.md R124). -/
theorem examine_next (h : examine b s = .next t) :
    s.rxBudget ≠ 0#32 ∧
      (b = s.cfg.syncIn ∧
          t = { s with rxBudget := s.rxBudget - 1#32, rxRaw := [b], rxSum := zext16 b, rxState := .seekAddr } ∨
        b ≠ s.cfg.syncIn ∧ s.rxBudget - 1#32 = 0#32 ∧
          t = raiseFailure .noFrame { s with rxBudget := s.rxBudget - 1#32 } ∨
        b ≠ s.cfg.syncIn ∧ s.rxBudget - 1#32 ≠ 0#32 ∧
          t = { s with rxBudget := s.rxBudget - 1#32, rxState := .seekSync }) := by
  unfold examine at h
  split at h
  · cases h
  · refine ⟨‹_›, ?_⟩
    dsimp only at h
    split at h
    · exact .inl ⟨‹_›, by cases h; rfl⟩
    · split at h
      · exact .inr (.inl ⟨‹_›, ‹_›, by cases h; rfl⟩)
      · exact .inr (.inr ⟨‹_›, ‹_›, by cases h; rfl⟩)

/-- Everything the resync of a mismatching address byte can do (41_response_reader.md R128). -/
theorem resyncByte_next (h : resyncByte b s = .next t) :
    s.rxBudget = 0#32 ∧ t = raiseFailure .noFrame { s with rxRaw := [], rxSum := 0x0000#16 } ∨
      s.rxBudget ≠ 0#32 ∧ examine b { s with rxRaw := [], rxSum := 0x0000#16 } = .next t := by
  unfold resyncByte at h
  dsimp only at h
  split at h
  · exact .inl ⟨‹_›, by cases h; rfl⟩
  · exact .inr ⟨‹_›, h⟩

/-- Everything a byte in `SEEK_ADDR` can do (41_response_reader.md R126 to R128). -/
theorem seekAddrByte_next (h : seekAddrByte b s = .next t) :
    b = s.cfg.addrIn ∧ t = { addFrameByte b s with rxState := .hdrCmd } ∨
      b ≠ s.cfg.addrIn ∧ s.cfg.addrPolicy = .failFast ∧ t = raiseFailure .addrMismatch s ∨
      b ≠ s.cfg.addrIn ∧ s.cfg.addrPolicy = .resync ∧ resyncByte b s = .next t := by
  unfold seekAddrByte at h
  split at h
  · exact .inl ⟨‹_›, by cases h; rfl⟩
  · split at h
    · exact .inr (.inl ⟨‹_›, ‹_›, by cases h; rfl⟩)
    · exact .inr (.inr ⟨‹_›, ‹_›, h⟩)

theorem hdrCmdByte_next (h : hdrCmdByte b s = .next t) :
    t = { addFrameByte b s with rxCmd := b, rxState := .lenHi } := by
  cases h; rfl

theorem lenHiByte_next (h : lenHiByte b s = .next t) :
    t = { addFrameByte b s with rxLen := joinBytes b 0x00#8, rxState := .lenLo } := by
  cases h; rfl

/-- Everything the length's low byte can do (41_response_reader.md R131). -/
theorem lenLoByte_next (h : lenLoByte b s = .next t) :
    (joinBytes (hiByte s.rxLen) b).toNat < 2 ∧
        t = raiseFailure .lengthInvalid { addFrameByte b s with rxLen := joinBytes (hiByte s.rxLen) b } ∨
      2 ≤ (joinBytes (hiByte s.rxLen) b).toNat ∧
        t = { addFrameByte b s with
          rxLen := joinBytes (hiByte s.rxLen) b
          rxRemaining := joinBytes (hiByte s.rxLen) b - 2#16
          rxState := if joinBytes (hiByte s.rxLen) b = 2#16 then .chkHi else .payload } := by
  unfold lenLoByte at h
  dsimp only at h
  split at h
  · exact .inl ⟨‹_›, by cases h; rfl⟩
  · exact .inr ⟨Nat.le_of_not_lt ‹_›, by cases h; rfl⟩

/-- Everything a payload byte can do (41_response_reader.md R132). -/
theorem payloadByte_next (h : payloadByte b s = .next t) :
    s.rxRemaining ≠ 0#16 ∧
      t = { addFrameByte b s with
        rxPayload := s.rxPayload ++ [b]
        rxRemaining := s.rxRemaining - 1#16
        rxState := if s.rxRemaining - 1#16 = 0#16 then .chkHi else .payload } := by
  unfold payloadByte at h
  split at h
  · cases h
  · exact ⟨‹_›, by cases h; rfl⟩

theorem chkHiByte_next (h : chkHiByte b s = .next t) :
    t = { addChecksumByte b s with rxChkHi := b, rxState := .chkLo } := by
  cases h; rfl

/-- Everything the checksum's low byte can do (41_response_reader.md R134). -/
theorem chkLoByte_next (h : chkLoByte b s = .next t) :
    joinBytes s.rxChkHi b = s.rxSum ∧
        t = { addChecksumByte b s with
          rxChk := joinBytes s.rxChkHi b
          rxState := .done
          rxStatus := .ok
          rxFrameValid := true } ∨
      joinBytes s.rxChkHi b ≠ s.rxSum ∧
        t = raiseFailure .checksumMismatch { addChecksumByte b s with rxChk := joinBytes s.rxChkHi b } := by
  unfold chkLoByte at h
  dsimp only at h
  split at h
  · exact .inl ⟨‹_›, by cases h; rfl⟩
  · exact .inr ⟨‹_›, by cases h; rfl⟩

/-- A byte is taken only in a reading state, by the rule of that state (41_response_reader.md R123). -/
theorem execRxByte_next (h : execRxByte b s = .next t) :
    s.rxState = .seekSync ∧ seekSyncByte b s = .next t ∨
      s.rxState = .seekAddr ∧ seekAddrByte b s = .next t ∨
      s.rxState = .hdrCmd ∧ hdrCmdByte b s = .next t ∨
      s.rxState = .lenHi ∧ lenHiByte b s = .next t ∨
      s.rxState = .lenLo ∧ lenLoByte b s = .next t ∨
      s.rxState = .payload ∧ payloadByte b s = .next t ∨
      s.rxState = .chkHi ∧ chkHiByte b s = .next t ∨
      s.rxState = .chkLo ∧ chkLoByte b s = .next t := by
  unfold execRxByte at h
  split at h <;> first | cases h; done | simp_all

theorem execRxUnderrun_next (h : execRxUnderrun s = .next t) :
    s.rxState.isReading = true ∧ t = raiseFailure .underrun s := by
  obtain ⟨hr, he⟩ := answerRequest_next h
  exact ⟨hr, by cases he; rfl⟩

theorem execRxChfault_next (h : execRxChfault c s = .next t) :
    s.rxState.isReading = true ∧ t = raiseFailure (.channelFault c) s := by
  obtain ⟨hr, he⟩ := answerRequest_next h
  exact ⟨hr, by cases he; rfl⟩

end Sys2Proof.Machine
end

