-- ==== Sys2Proof/Laws/PerInstr.lean ====
section
/-! SUPPORT. Statements for all operations, made per constructor. -/

namespace Sys2Proof.Laws.EncodeLegal

open Sys2Proof.Machine

/-- The word the encoder writes has the operation's code in `OP`, its operand in `IMM8`, and is legal when issued by
the operation's agent (30_encoding.md R79, R80; 10_state.md R22). -/
def Statement (i : Instr) : Prop :=
  opField (encode i) = opcodeOf i ∧ immField (encode i) = operandOf i ∧ offerWellFormed i.issuer (encode i) = true

/-- The low byte of a word does not disturb the test of its `OP`. -/
theorem covers_opWord (op imm : Byte) (n : String) (a : Agent) :
    OpRow.covers ⟨n, 0xFF00#16, opWord op 0x00#8, a⟩ (opWord op imm) = true := by
  simp only [OpRow.covers, beq_iff_eq]
  apply BitVec.eq_of_getLsbD_eq
  intro k hk
  simp only [opWord, BitVec.getLsbD_and, BitVec.getLsbD_append]
  by_cases h : k < 8
  · have : (0xFF00#16).getLsbD k = false := by
      revert h; revert k; decide
    simp [h, this]
  · have : (0xFF00#16).getLsbD k = true := by
      revert h; revert hk; revert k; decide
    simp [h, this]

theorem offer_of_row {r : OpRow} (hr : r ∈ opcodeMap) {w : OpWord} (hw : r.covers w = true) :
    offerWellFormed r.issuer w = true := by
  simp only [offerWellFormed, List.any_eq_true, Bool.and_eq_true, decide_eq_true_eq]
  exact ⟨r, hr, hw, rfl⟩

/-- An operation with a byte operand: its row is in the map, and the row's value is its code with operand 0. -/
theorem of_byte_row {i : Instr} {n : String} {op : Byte} {a : Agent} (ho : opcodeOf i = op) (ha : i.issuer = a)
    (hr : OpRow.mk n 0xFF00#16 (opWord op 0x00#8) a ∈ opcodeMap) : Statement i := by
  subst ho; subst ha
  exact ⟨opField_opWord _ _, immField_opWord _ _, offer_of_row hr (covers_opWord _ _ _ _)⟩

theorem txBegin (b : Byte) : Statement (.txBegin b) :=
  of_byte_row (n := "TX_BEGIN") (op := 0x01#8) (a := .host) rfl rfl (by decide)
theorem txPush (b : Byte) : Statement (.txPush b) :=
  of_byte_row (n := "TX_PUSH") (op := 0x02#8) (a := .host) rfl rfl (by decide)
theorem txEnd : Statement .txEnd := ⟨rfl, rfl, by decide⟩
theorem csumClr : Statement .csumClr := ⟨rfl, rfl, by decide⟩
theorem csumAdd (b : Byte) : Statement (.csumAdd b) :=
  of_byte_row (n := "CSUM_ADD") (op := 0x09#8) (a := .host) rfl rfl (by decide)
theorem rxStart : Statement .rxStart := ⟨rfl, rfl, by decide⟩
theorem rxByte (b : Byte) : Statement (.rxByte b) :=
  of_byte_row (n := "RX_BYTE") (op := 0x11#8) (a := .byteSource) rfl rfl (by decide)
theorem rxUnderrun : Statement .rxUnderrun := ⟨rfl, rfl, by decide⟩
theorem rxChfault (b : Byte) : Statement (.rxChfault b) :=
  of_byte_row (n := "RX_CHFAULT") (op := 0x13#8) (a := .byteSource) rfl rfl (by decide)

end Sys2Proof.Laws.EncodeLegal
end

