-- ==== Sys2Proof/Laws/Step.lean ====
section
/-! SUPPORT. What the port offers, what a step can do with it, and what a turn of the environment can do. -/

namespace Sys2Proof.Machine

variable {s t : State}

@[simp] theorem readPort_nil (h : s.port = []) : readPort s = .waiting := by
  simp [readPort, h]

theorem readPort_operation {w : OpWord} {rest : List OpWord} {i : Instr} (h : s.port = w :: rest)
    (hd : decode w = .instr i) : readPort s = .operation i { s with port := rest } := by
  simp [readPort, h, hd]

theorem readPort_reserved {w : OpWord} {rest : List OpWord} {r : ReservedReason} (h : s.port = w :: rest)
    (hd : decode w = .reserved r) : readPort s = .reserved r := by
  simp [readPort, h, hd]

@[simp] theorem offerFirst_port (w : OpWord) (s : State) : (offerFirst w s).port = w :: s.port := rfl

@[simp] theorem applyReset_cfg (s : State) : (applyReset s).cfg = s.cfg := rfl

@[simp] theorem applyReset_port (s : State) : (applyReset s).port = s.port := rfl

/-- Everything a step that answers a next state can have done: it waited, or it took one word and ran its
operation. -/
theorem step_next (h : step s = .next t) :
    s.port = [] ∧ t = s ∨
      ∃ w rest i, s.port = w :: rest ∧ decode w = .instr i ∧ exec i { s with port := rest } = .next t := by
  cases hp : s.port with
  | nil => exact .inl ⟨rfl, by simp [step, readPort, hp, waitForOperation] at h; exact h.symm⟩
  | cons w rest =>
    right
    cases hd : decode w with
    | instr i =>
      refine ⟨w, rest, i, rfl, hd, ?_⟩
      rwa [step, readPort_operation hp hd] at h
    | reserved r =>
      rw [step, readPort_reserved hp hd] at h
      cases r <;> cases h

/-- A word is what its operation and operand bytes say. -/
theorem decode_opWord (op imm : Byte) : decode (opWord op imm) = decodeFields op imm := by
  simp [decode]

/-- Everything a turn can do where no word waits: nothing, one operation, or a reset. -/
theorem takeTurn_next {u : Turn} (hp : s.port = []) (h : takeTurn u s = .next t) :
    u = .wait ∧ t = s ∨
      (∃ i j, u = .operation i ∧ decode (encode i) = .instr j ∧ exec j s = .next t) ∨
      u = .reset ∧ t = applyReset s := by
  cases u with
  | wait =>
    rcases step_next h with ⟨-, rfl⟩ | ⟨w, rest, i, hw, -, -⟩
    · exact .inl ⟨rfl, rfl⟩
    · rw [hp] at hw; cases hw
  | operation i =>
    have ho : (offerOps [i] s).port = encode i :: [] := by simp [offerOps, hp]
    have hs : { offerOps [i] s with port := [] } = s := by rw [← hp]; rfl
    rcases step_next h with ⟨hn, -⟩ | ⟨w, rest, j, hw, hd, he⟩
    · rw [ho] at hn; cases hn
    · rw [ho] at hw; cases hw
      rw [hs] at he
      exact .inr (.inl ⟨i, j, rfl, hd, he⟩)
  | reset => cases h; exact .inr (.inr ⟨rfl, rfl⟩)

@[simp] theorem answersIn_zero (turns : Nat → Turn) (n : Nat) : answersIn turns n 0 = 0 := rfl

@[simp] theorem answersIn_succ (turns : Nat → Turn) (n k : Nat) :
    answersIn turns n (k + 1) = answersIn turns n k + if (turns (n + k)).isAnswer then 1 else 0 := rfl

end Sys2Proof.Machine
end

