-- ==== Sys2Proof/Tests/Slice0.lean ====
section
/-! SUPPORT. The model's own tests: the words of the spec's encoding, the ill-formed words, single steps whose expected
results stand in spec/ (each names its vector or rule), and for every statement with hypotheses a state that meets
them. -/

namespace Sys2Proof.Tests

open Sys2Proof Sys2Proof.Machine Sys2Proof.Claims

/-- The next state, if there is one. -/
def after : StepOutcome → Option State
  | .next s => some s
  | .fault _ => none
  | .refused _ => none

/-- The refusal, if there is one. -/
def refusal : StepOutcome → Option Refusal
  | .next _ => none
  | .fault _ => none
  | .refused r => some r

theorem exists_of_after {o : StepOutcome} {p : State → Bool} (h : (after o).any p = true) :
    ∃ t, o = .next t ∧ p t = true := by
  cases o with
  | next t => exact ⟨t, rfl, by simpa [after] using h⟩
  | fault r => cases h
  | refused r => cases h

theorem reachable_run {cfg : Config} {k : Nat} {s t : State} (hs : Reachable cfg s) (h : runSteps k s = .next t) :
    Reachable cfg t := by
  induction k generalizing s with
  | zero => cases h; exact hs
  | succ k ih =>
    unfold runSteps at h
    split at h
    · rename_i u hu; exact ih (.step s u hs hu) h
    · cases h
    · cases h

/-- One step on the word `w`, as the opcode table numbers it. -/
def stepWord (s : State) (w : Nat) : StepOutcome := step (s.withFetchWord 16 w)

/-- The reference instance with another budget and policy (95_test_vectors.md). -/
def instanceOf (budget : Budget) (policy : AddrPolicy) : Config :=
  { Config.reference with maxResyncBytes := budget, addrPolicy := policy }

def building : State := { State.reset with txState := .build, txCmd := 0x02#8 }
def seeking (budget : Budget) : State := { State.reset with rxState := .seekSync, rxStatus := .busy, rxBudget := budget }
def afterSync : State :=
  { State.reset with
    rxState := .seekAddr, rxStatus := .busy, rxBudget := 15#32, rxRaw := [0xA6#8], rxSum := 0x00A6#16 }
def resyncing (budget : Budget) : State := { afterSync with cfg := instanceOf 16#32 .resync, rxBudget := budget }
def inState (q : RxState) : State := { afterSync with rxState := q }
def offered (cfg : Config) (ws : List OpWord) : State := { State.resetWith cfg with port := ws }

/-! ### Decoding: words written bit by bit (30_encoding.md R80) and the ill-formed words (R82) -/

theorem test_decode_builder_word : decode 0b0000000100000010#16 = .instr (.txBegin 0x02#8) := by decide
theorem test_decode_checksum_word : decode 0b0000100110100101#16 = .instr (.csumAdd 0xA5#8) := by decide
theorem test_decode_reader_word : decode 0b0001000110100110#16 = .instr (.rxByte 0xA6#8) := by decide
theorem test_decode_table_word : decodeTableWord 16 0x1305 = some (.rxChfault 0x05#8) := by decide
theorem test_decode_table_word_refused : decodeTableWord 16 0x0301 = none := by decide

theorem test_illformed_opcode : wordLegal 0x0000#16 = false ∧ wordLegal 0x0400#16 = false ∧
    wordLegal 0x0AFF#16 = false ∧ wordLegal 0x1400#16 = false := by decide
theorem test_illformed_operand : wordLegal 0x0301#16 = false ∧ wordLegal 0x0801#16 = false ∧
    wordLegal 0x1001#16 = false ∧ wordLegal 0x12FF#16 = false := by decide
theorem test_illformed_agent : offerWellFormed .byteSource 0x0102#16 = false ∧
    offerWellFormed .host 0x11A6#16 = false ∧ offerWellFormed .host 0x0102#16 = true := by decide

/-- Vectors X-6, X-7, X-5, T-13, K-9, X-4: reserved words are refused by name. -/
theorem test_reserved_words :
    refusal (stepWord State.reset 0x0000) = some .reservedOpcode ∧
    refusal (stepWord State.reset 0x0400) = some .reservedOpcode ∧
    refusal (stepWord State.reset 0x1001) = some .reservedOperand ∧
    refusal (stepWord building 0x0301) = some .reservedOperand ∧
    refusal (stepWord State.reset 0x0801) = some .reservedOperand ∧
    refusal (stepWord (seeking 16#32) 0x1201) = some .reservedOperand := by decide

/-! ### One step per operation -/

/-- The example of R101. -/
theorem test_txBegin_example : (after (stepWord State.reset 0x0102)).map
    (fun t => (t.txState, t.txCmd, t.txPayload, t.txValid)) = some (.build, 0x02#8, [], false) := by decide
/-- Vector T-12. -/
theorem test_txBegin_while_building : refusal (stepWord building 0x0103) = some .txBeginWhileBuilding := by decide
/-- The example of R102. -/
theorem test_txPush_example : (after (stepWord building 0x0201)).map (·.txPayload) = some [0x01#8] := by decide
/-- Vector T-10. -/
theorem test_txPush_while_idle : refusal (stepWord State.reset 0x0201) = some .txPushWhileIdle := by decide
/-- Vectors T-1 and T-11. -/
theorem test_txEnd_empty_payload : (after (stepWord building 0x0300)).map
      (fun t => (t.txFrame, t.txValid, t.txState)) =
      some ([0xA5#8, 0x01#8, 0x02#8, 0x00#8, 0x02#8, 0x00#8, 0xAA#8], true, .idle) ∧
    refusal (stepWord State.reset 0x0300) = some .txEndWhileIdle := by decide
/-- Vector T-4. -/
theorem test_txEnd_sum_carries : (after (stepWord { building with
      txCmd := 0xFF#8, txPayload := [0xFF#8, 0xFF#8, 0xFF#8, 0xFF#8] } 0x0300)).map (·.txFrame) =
      some [0xA5#8, 0x01#8, 0xFF#8, 0x00#8, 0x06#8, 0xFF#8, 0xFF#8, 0xFF#8, 0xFF#8, 0x05#8, 0xA7#8] := by decide
/-- The example of R106. -/
theorem test_csumClr_example :
    (after (stepWord { State.reset with csumAcc := 0x1234#16 } 0x0800)).map (·.csumAcc) = some 0x0000#16 := by decide
/-- Vectors K-6 and K-7. -/
theorem test_csumAdd_wraps :
    (after (stepWord { State.reset with csumAcc := 0xFFFF#16 } 0x0901)).map (·.csumAcc) = some 0x0000#16 ∧
    (after (stepWord { State.reset with csumAcc := 0xFF80#16 } 0x09FF)).map (·.csumAcc) = some 0x007F#16 := by decide
/-- The example of R122. -/
theorem test_rxStart_example : (after (stepWord State.reset 0x1000)).map
    (fun t => (t.rxState, t.rxStatus, t.rxBudget)) = some (.seekSync, .busy, 16#32) := by decide
/-- Vectors R-10 and X-2. -/
theorem test_rxStart_no_budget_and_busy :
    (after (stepWord (State.resetWith (instanceOf 0#32 .failFast)) 0x1000)).map (fun t => (t.rxState, t.rxStatus)) =
      some (.done, .noFrame) ∧
    refusal (stepWord (seeking 16#32) 0x1000) = some .rxStartWhileBusy := by decide
/-- The examples of R125 to R128, vectors R-8 and R-16 at the last budget unit. -/
theorem test_rxByte_sync_phase :
    (after (stepWord (seeking 3#32) 0x1111)).map (fun t => (t.rxState, t.rxBudget)) = some (.seekSync, 2#32) ∧
    (after (stepWord (seeking 1#32) 0x11A6)).map (fun t => (t.rxState, t.rxSum)) = some (.seekAddr, 0x00A6#16) ∧
    (after (stepWord (seeking 1#32) 0x1133)).map (·.rxStatus) = some .noFrame ∧
    (after (stepWord afterSync 0x1102)).map (fun t => (t.rxState, t.rxSum)) = some (.hdrCmd, 0x00A8#16) ∧
    (after (stepWord afterSync 0x11A6)).map (·.rxStatus) = some .addrMismatch ∧
    (after (stepWord (resyncing 14#32) 0x11A6)).map (fun t => (t.rxState, t.rxBudget, t.rxRaw)) =
      some (.seekAddr, 13#32, [0xA6#8]) ∧
    (after (stepWord (resyncing 0#32) 0x1155)).map (·.rxStatus) = some .noFrame := by decide
/-- The examples of R129 to R134. -/
theorem test_rxByte_frame_phase :
    (after (stepWord { inState .hdrCmd with rxSum := 0x00A8#16 } 0x1102)).map
      (fun t => (t.rxCmd, t.rxSum, t.rxState)) = some (0x02#8, 0x00AA#16, .lenHi) ∧
    (after (stepWord (inState .lenHi) 0x1101)).map (·.rxLen) = some 0x0100#16 ∧
    (after (stepWord (inState .lenLo) 0x1105)).map (fun t => (t.rxLen, t.rxRemaining, t.rxState)) =
      some (5#16, 3#16, .payload) ∧
    (after (stepWord (inState .lenLo) 0x1101)).map (·.rxStatus) = some .lengthInvalid ∧
    (after (stepWord { inState .payload with rxRemaining := 1#16 } 0x1101)).map
      (fun t => (t.rxRemaining, t.rxState)) = some (0#16, .chkHi) ∧
    (after (stepWord (inState .chkHi) 0x1101)).map (fun t => (t.rxChkHi, t.rxState)) = some (0x01#8, .chkLo) ∧
    (after (stepWord { inState .chkLo with rxSum := 0x0178#16, rxChkHi := 0x01#8 } 0x1178)).map
      (fun t => (t.rxStatus, t.rxFrameValid)) = some (.ok, true) := by decide
/-- Vector R-12's last event, and 0x1200 from reset. -/
theorem test_rxUnderrun : (after (stepWord (inState .payload) 0x1200)).map
      (fun t => (t.rxStatus, t.rxFrameValid)) = some (.underrun, false) ∧
    refusal (stepWord State.reset 0x1200) = some .rxEventNotReading := by decide
/-- The example of R136, and vector X-1's refusal on 0x1305. -/
theorem test_rxChfault : (after (stepWord (seeking 16#32) 0x1305)).map
      (fun t => (t.rxStatus, t.rxFaultCode)) = some (.channelFault, 0x05#8) ∧
    refusal (stepWord State.reset 0x1305) = some .rxEventNotReading := by decide

/-- Vector X-8: no partial frame is readable. -/
theorem test_read_without_frame : readOutput .rxPayload State.reset = .refused .outputNotValid := by decide

/-- R84 and R85: operands, a comment, and the syntax errors. -/
theorem test_assembler :
    assembleLine "rx.byte 0xA6      ; sync".toList = some [.rxByte 0xA6#8] ∧
    assembleLine "tx.push 255".toList = some [.txPush 0xFF#8] ∧
    assembleLine "tx.push 256".toList = none ∧ assembleLine "tx.end 0".toList = none ∧
    assembleLine "tx.frame 0x02, [0x01]".toList = some [.txBegin 0x02#8, .txPush 0x01#8, .txEnd] ∧
    assembleLine "rx.short [0x11]".toList = some [.rxByte 0x11#8, .rxUnderrun] := by decide

/-! ### For every statement with hypotheses, states that meet them -/

theorem witness_ReservedWordsRefused :
    (offered Config.reference [0x0700#16]).port = 0x0700#16 :: [] ∧ (0x0700#16).toNat / 256 = 0x07 ∧
    (0x0A00#16).toNat / 256 = 0x0A ∧ (0x1400#16).toNat / 256 = 0x14 ∧ (0x0000#16).toNat / 256 = 0 ∧
    (0x1201#16).toNat / 256 = 0x12 ∧ (0x1201#16).toNat % 256 = 1 ∧ (0x1300#16).toNat / 256 = 0x13 := by decide
theorem witness_StepRunsDecodedOperation :
    (offered Config.reference [0x1000#16]).port = 0x1000#16 :: [] ∧ decode 0x1000#16 = .instr .rxStart := by decide
theorem witness_EmptyPortWaits : State.reset.port = [] := rfl
theorem witness_TxBeginEffect : State.reset.txState = .idle ∧ building.txState = .build := by decide
theorem witness_TxPushEffect : building.txState = .build ∧
    ({ building with txPayload := List.replicate 65532 0#8 } : State).txPayload.length < 65533 ∧
    ({ building with txPayload := List.replicate 65533 0#8 } : State).txPayload.length = 65533 ∧
    (State.reset.txState = .idle ∧ State.reset.txPayload.length ≠ 65533) ∧
    ({ State.reset with txPayload := List.replicate 65533 0#8 } : State).txState = .idle ∧
    ({ State.reset with txPayload := List.replicate 65533 0#8 } : State).txPayload.length = 65533 := by
  refine ⟨rfl, ?_, ?_, by decide, rfl, ?_⟩
  · show (List.replicate 65532 0#8).length < 65533; rw [List.length_replicate]; decide
  · show (List.replicate 65533 0#8).length = 65533; rw [List.length_replicate]
  · show (List.replicate 65533 0#8).length = 65533; rw [List.length_replicate]
theorem witness_TxPushIdleBeforeFull :
    ({ State.reset with txPayload := List.replicate 65533 0#8 } : State).txState = .idle := rfl
theorem witness_TxEndEffect : building.txState = .build ∧ building.txPayload.length ≤ 65533 ∧
    ({ building with txPayload := List.replicate 65533 0#8 } : State).txPayload.length ≤ 65533 ∧
    State.reset.txState = .idle := by
  refine ⟨rfl, by decide, ?_, rfl⟩
  show (List.replicate 65533 0#8).length ≤ 65533; rw [List.length_replicate]
theorem witness_TxFrameBuildsCommand :
    State.reset.txState = .idle ∧ ([0x01#8] : List Byte).length ≤ 65533 ∧
    (offered Config.reference [0x0102#16, 0x0201#16, 0x0300#16]).port =
      opWords (expand (.txFrame 0x02#8 [0x01#8])) ++ [] := by decide
theorem witness_BuiltFrameProperties : ∃ t, exec .txEnd building = .next t ∧ t.txValid = true :=
  exists_of_after (p := fun t => t.txValid) (by decide)
theorem witness_CsumSeqComputesChecksum :
    [0x01#8, 0xA5#8].Perm [0xA5#8, 0x01#8] ∧
    (offered Config.reference [0x0800#16, 0x0901#16, 0x09A5#16]).port =
      opWords (expand (.csumSeq [0x01#8, 0xA5#8])) ++ [] := ⟨.swap _ _ _, by decide⟩
theorem witness_RxStartEffect :
    State.reset.rxState = .idle ∧ State.reset.cfg.maxResyncBytes ≠ 0#32 ∧
    (State.resetWith (instanceOf 0#32 .failFast)).cfg.maxResyncBytes = 0#32 ∧
    (inState .done).rxState = .done ∧ (seeking 1#32).rxState.isReading = true := by decide
theorem witness_SourceEventsEnabledWhenReading :
    FramerInv (seeking 1#32) ∧ (seeking 1#32).rxState.isReading = true ∧ State.reset.rxState = .idle ∧
    (inState .done).rxState = .done := ⟨⟨by decide, by decide, by decide, by decide⟩, by decide⟩
theorem witness_SeekSyncByteEffect :
    (seeking 1#32).rxState = .seekSync ∧ 1 ≤ (seeking 1#32).rxBudget.toNat ∧ 0xA6#8 = (seeking 1#32).cfg.syncIn ∧
    0x33#8 ≠ (seeking 1#32).cfg.syncIn ∧ (seeking 1#32).rxBudget - 1#32 = 0#32 ∧
    (seeking 2#32).rxBudget - 1#32 ≠ 0#32 := by decide
theorem witness_AddressMatchEffect :
    afterSync.rxState = .seekAddr ∧ 0x02#8 = afterSync.cfg.addrIn ∧ 3 ≤ (inState .hdrCmd).rxState.code.toNat ∧
    (after (exec (.rxByte 0x02#8) (inState .hdrCmd))).isSome = true ∧
    (after (exec (.rxByte 0x78#8) (inState .chkLo))).isSome = true := by decide
theorem witness_AddressMismatchFailFast :
    afterSync.rxState = .seekAddr ∧ 0xA6#8 ≠ afterSync.cfg.addrIn ∧ afterSync.cfg.addrPolicy = .failFast := by decide
theorem witness_AddressMismatchResync :
    (resyncing 0#32).rxState = .seekAddr ∧ 0x55#8 ≠ (resyncing 0#32).cfg.addrIn ∧
    (resyncing 0#32).cfg.addrPolicy = .resync ∧ (resyncing 0#32).rxBudget = 0#32 ∧
    (resyncing 1#32).rxBudget ≠ 0#32 ∧ 0xA6#8 = (resyncing 1#32).cfg.syncIn ∧ 0xA6#8 ≠ (resyncing 1#32).cfg.addrIn ∧
    0x55#8 ≠ (resyncing 1#32).cfg.syncIn ∧ (resyncing 1#32).rxBudget - 1#32 = 0#32 ∧
    (resyncing 2#32).rxBudget - 1#32 ≠ 0#32 := by decide
theorem witness_CommandByteEffect : (inState .hdrCmd).rxState = .hdrCmd := rfl
theorem witness_LengthHighByteEffect : (inState .lenHi).rxState = .lenHi := rfl
theorem witness_LengthLowByteEffect :
    (inState .lenLo).rxState = .lenLo ∧ (inState .lenLo).rxLen.toNat / 256 * 256 + (0x01#8).toNat < 2 ∧
    (inState .lenLo).rxLen.toNat / 256 * 256 + (0x02#8).toNat = 2 ∧
    2 < (inState .lenLo).rxLen.toNat / 256 * 256 + (0x03#8).toNat := by decide
theorem witness_PayloadByteEffect :
    ({ inState .payload with rxRemaining := 1#16 } : State).rxState = .payload ∧
    1 ≤ ({ inState .payload with rxRemaining := 1#16 } : State).rxRemaining.toNat := by decide
theorem witness_ChecksumHighByteEffect : (inState .chkHi).rxState = .chkHi := rfl
theorem witness_ChecksumLowByteEffect :
    (inState .chkLo).rxState = .chkLo ∧
    (BitVec.ofNat 16 ((inState .chkLo).rxChkHi.toNat * 256 + (0xA6#8).toNat) : Half) = (inState .chkLo).rxSum ∧
    (BitVec.ofNat 16 ((inState .chkLo).rxChkHi.toNat * 256 + (0xA7#8).toNat) : Half) ≠ (inState .chkLo).rxSum := by
  decide
theorem witness_RxUnderrunEffect :
    (inState .chkLo).rxState.isReading = true ∧ State.reset.rxState = .idle ∧ (inState .done).rxState = .done := by
  decide
theorem witness_RxChfaultEffect :
    (seeking 1#32).rxState.isReading = true ∧ State.reset.rxState = .idle ∧ (inState .done).rxState = .done := by
  decide
theorem witness_PriorityInsideOneOperation :
    (seeking 1#32).rxState = .seekSync ∧ 0xA6#8 = (seeking 1#32).cfg.syncIn ∧ (seeking 1#32).rxBudget = 1#32 ∧
    (resyncing 0#32).rxState = .seekAddr ∧ (resyncing 0#32).cfg.addrPolicy = .resync ∧
    0xA6#8 ≠ (resyncing 0#32).cfg.addrIn ∧ (resyncing 0#32).rxBudget = 0#32 ∧
    (inState .lenLo).rxState = .lenLo ∧ (inState .lenLo).rxLen.toNat / 256 * 256 + (0x01#8).toNat < 2 ∧
    (inState .chkLo).rxState = .chkLo ∧ (State.resetWith (instanceOf 0#32 .resync)).rxState = .idle ∧
    (State.resetWith (instanceOf 0#32 .resync)).cfg.maxResyncBytes = 0#32 := by decide
theorem witness_InvocationEndsInOutcome :
    (∃ t, exec (.rxChfault 0x05#8) (seeking 1#32) = .next t ∧ decide (t.rxState = .done) = true) ∧
    (∃ t, exec (.rxByte 0xA6#8) (inState .chkLo) = .next t ∧ decide (t.rxState = .done ∧ t.rxStatus = .ok) = true) ∧
    (seeking 1#32).rxState.isReading = true ∧ (inState .chkLo).rxState.isReading = true :=
  ⟨exists_of_after (p := fun t => decide (t.rxState = .done)) (by decide),
    exists_of_after (p := fun t => decide (t.rxState = .done ∧ t.rxStatus = .ok)) (by decide), by decide, by decide⟩
theorem witness_OnlyRxStartLeavesDone :
    (inState .done).rxState = .done ∧ ∃ t, exec .csumClr (inState .done) = .next t ∧ true = true :=
  ⟨rfl, exists_of_after (p := fun _ => true) (by decide)⟩
theorem witness_RefusalsAreTheTable : State.reset.txPayload.length ≤ 65533 := by decide
theorem witness_NoFrameSpendsTheBudget :
    (∃ t, runSteps (1 + 1) (offered (instanceOf 1#32 .failFast) [0x1000#16, 0x1111#16]) = .next t ∧
      decide (t.rxStatus = .noFrame) = true) ∧
    (∃ t, runSteps (1 + 2) (offered (instanceOf 1#32 .resync) [0x1000#16, 0x11A6#16, 0x1155#16]) = .next t ∧
      decide (t.rxStatus = .noFrame) = true) ∧
    (offered (instanceOf 1#32 .resync) [0x1000#16, 0x11A6#16, 0x1155#16]).port =
      encode .rxStart :: (byteWords [0xA6#8, 0x55#8] ++ []) ∧
    (offered (instanceOf 1#32 .failFast) [0x1000#16, 0x1111#16]).port =
      encode .rxStart :: (byteWords [0x11#8] ++ []) :=
  ⟨exists_of_after (p := fun t => decide (t.rxStatus = .noFrame)) (by decide),
    exists_of_after (p := fun t => decide (t.rxStatus = .noFrame)) (by decide), by decide, by decide⟩
/-- For `OperationsTouchOnlyTheirPart`, `FieldsWrittenOnlyByTheirRules` and `BudgetNeverWraps`: an operation of each
part with a next state. -/
theorem witness_frames :
    (∃ t, exec .txEnd building = .next t ∧ true = true) ∧
    (∃ t, exec (.csumAdd 0x01#8) State.reset = .next t ∧ true = true) ∧
    (∃ t, exec (.rxByte 0x11#8) (seeking 2#32) = .next t ∧ true = true) :=
  ⟨exists_of_after (p := fun _ => true) (by decide), exists_of_after (p := fun _ => true) (by decide),
    exists_of_after (p := fun _ => true) (by decide)⟩
theorem witness_OperationsTouchOnlyTheirPart : ∃ t, exec .txEnd building = .next t ∧ true = true := witness_frames.1
theorem witness_FieldsWrittenOnlyByTheirRules :
    ∃ t, exec (.csumAdd 0x01#8) State.reset = .next t ∧ true = true := witness_frames.2.1
theorem witness_BudgetNeverWraps : ∃ t, exec (.rxByte 0x11#8) (seeking 2#32) = .next t ∧ true = true :=
  witness_frames.2.2
theorem witness_OperationsOfDifferentPartsCommute :
    partOf (.txBegin 0x02#8) ≠ partOf .rxStart ∧
    ∃ t, exec (.txBegin 0x02#8) State.reset = .next t ∧ (after (exec .rxStart t)).isSome = true :=
  ⟨by decide, exists_of_after (p := fun t => (after (exec .rxStart t)).isSome) (by decide)⟩
/-- For `StepKeepsInvariant` and `NoFaultUnderInvariant`. -/
theorem witness_StepKeepsInvariant :
    FramerInv (seeking 1#32) ∧ ∃ t, stepWord (seeking 1#32) 0x11A6 = .next t ∧ true = true :=
  ⟨⟨by decide, by decide, by decide, by decide⟩, exists_of_after (p := fun _ => true) (by decide)⟩
theorem witness_NoFaultUnderInvariant : FramerInv (seeking 1#32) := witness_StepKeepsInvariant.1
theorem reachable_offered (cfg : Config) (ws : List OpWord) : Reachable cfg (offered cfg ws) :=
  .offer (State.resetWith cfg) ws .reset
/-- For `ReaderInvariantsAlwaysHold`, `SequencesStayWithinCapacity`, `PollingSeesTheEnd`: a reading state. -/
theorem witness_ReaderInvariantsAlwaysHold :
    ∃ t, Reachable Config.reference t ∧ decide (t.rxState = .seekAddr) = true := by
  obtain ⟨t, h, ht⟩ := exists_of_after (o := runSteps 2 (offered Config.reference [0x1000#16, 0x11A6#16]))
    (p := fun t => decide (t.rxState = .seekAddr)) (by decide)
  exact ⟨t, reachable_run (reachable_offered _ _) h, ht⟩
theorem witness_SequencesStayWithinCapacity : ∃ t, Reachable Config.reference t ∧ decide (t.rxState = .seekAddr) = true :=
  witness_ReaderInvariantsAlwaysHold
theorem witness_PollingSeesTheEnd :
    ∃ t, Reachable Config.reference t ∧ invocationEnded t = true ∧ decide (t.rxState = .done) = true := by
  obtain ⟨t, h, ht⟩ := exists_of_after (o := runSteps 2 (offered Config.reference [0x1000#16, 0x1200#16]))
    (p := fun t => invocationEnded t && decide (t.rxState = .done)) (by decide)
  exact ⟨t, reachable_run (reachable_offered _ _) h, by simpa using ht⟩
/-- A whole frame without payload (vector R-5). -/
def shortFrame : List Byte := [0xA6#8, 0x02#8, 0x07#8, 0x00#8, 0x02#8, 0x00#8, 0xB1#8]
theorem witness_RunningSumIsRecomputedChecksum :
    (∃ t, Reachable Config.reference t ∧ decide (t.rxState = .chkHi) = true) ∧
    ∃ t, Reachable Config.reference t ∧ decide (t.rxState = .chkLo) = true := by
  constructor
  · obtain ⟨t, h, ht⟩ := exists_of_after
      (o := runSteps 6 (offered Config.reference (encode .rxStart :: byteWords shortFrame)))
      (p := fun t => decide (t.rxState = .chkHi)) (by decide)
    exact ⟨t, reachable_run (reachable_offered _ _) h, ht⟩
  · obtain ⟨t, h, ht⟩ := exists_of_after
      (o := runSteps 7 (offered Config.reference (encode .rxStart :: byteWords shortFrame)))
      (p := fun t => decide (t.rxState = .chkLo)) (by decide)
    exact ⟨t, reachable_run (reachable_offered _ _) h, ht⟩
/-- Vector R-5. -/
theorem witness_AcceptedFrameIsWellFormed :
    (∃ t, runSteps (1 + shortFrame.length)
        (offered Config.reference (encode .rxStart :: (byteWords shortFrame ++ []))) = .next t ∧
      decide (t.rxStatus = .ok) = true) ∧ State.reset.rxState = .idle :=
  ⟨exists_of_after (p := fun t => decide (t.rxStatus = .ok)) (by decide), rfl⟩
theorem witness_EveryInvocationEnds :
    (List.replicate 65540 (SourceEvent.byte 0x00#8)).length = eventBound (instanceOf 1#32 .resync) ∧
    ([] : List SourceEvent).length = eventBound (instanceOf 0#32 .resync) ∧
    (offered (instanceOf 0#32 .resync) [0x1000#16]).port = encode .rxStart :: (eventWords [] ++ []) ∧
    (offered (instanceOf 1#32 .resync)
        (encode .rxStart :: (eventWords (List.replicate 65540 (.byte 0x00#8)) ++ []))).port =
      encode .rxStart :: (eventWords (List.replicate 65540 (.byte 0x00#8)) ++ []) := by
  refine ⟨?_, by decide, by decide, rfl⟩
  rw [List.length_replicate]; decide
/-- An invocation of two host turns and a wait, which the byte source ends; then nothing happens any more. -/
def fairTurns : Nat → Turn
  | 0 => .operation .rxStart
  | 1 => .wait
  | 2 => .operation (.csumAdd 0x05#8)
  | 3 => .operation .rxUnderrun
  | _ + 4 => .wait
def startedState : State := { seeking 16#32 with port := [] }
def fairStates : Nat → State
  | 0 => State.reset
  | 1 => startedState
  | 2 => startedState
  | 3 => { startedState with csumAcc := 0x0005#16 }
  | _ + 4 => { startedState with csumAcc := 0x0005#16, rxState := .done, rxStatus := .underrun }
theorem witness_FairInvocationEnds :
    IsRun fairTurns fairStates ∧ WeaklyFair fairTurns fairStates ∧ fairTurns 0 = .operation .rxStart := by
  refine ⟨⟨rfl, fun n => ?_⟩, fun n h => ?_, rfl⟩
  · match n with
    | 0 => rfl
    | 1 => rfl
    | 2 => rfl
    | 3 => rfl
    | n + 4 => rfl
  · cases h (n + 4) (by omega)
theorem shortFrame_valid : ValidFrame 0xA6#8 0x02#8 shortFrame := ⟨0x07#8, [], by decide, by decide⟩
/-- Under both policies, at the largest tolerated noise for a budget of 2 (R140(a)). -/
theorem witness_ResyncOverNoise :
    ValidFrame Config.reference.syncIn Config.reference.addrIn shortFrame ∧
    NoiseTolerated (instanceOf 2#32 .failFast) [0x00#8] shortFrame [0x55#8] ∧
    NoiseTolerated (instanceOf 2#32 .resync) [0xA6#8] shortFrame [0x55#8] ∧
    (offered (instanceOf 2#32 .resync) (encode .rxStart :: byteWords ([0xA6#8] ++ shortFrame ++ [0x55#8]))).port =
      encode .rxStart :: byteWords ([0xA6#8] ++ shortFrame ++ [0x55#8]) := by
  refine ⟨shortFrame_valid, ⟨by decide, by decide, by decide⟩, ⟨by decide, by decide, ?_⟩, rfl⟩
  intro _ i hi
  have h0 : i = 0 := by simpa using hi
  subst h0; decide
theorem witness_FlippedBitIsRejected :
    ValidFrame Config.reference.syncIn Config.reference.addrIn shortFrame ∧ (6 : Nat) < shortFrame.length ∧
    NoiseTolerated (instanceOf 1#32 .failFast) [] (flipBit shortFrame 2 7) [] ∧
    NoiseTolerated (instanceOf 1#32 .resync) [] (flipBit shortFrame 6 0) [] ∧
    (offered (instanceOf 1#32 .resync) (encode .rxStart :: byteWords ([] ++ flipBit shortFrame 6 0 ++ []))).port =
      encode .rxStart :: byteWords ([] ++ flipBit shortFrame 6 0 ++ []) := by
  refine ⟨shortFrame_valid, by decide, ⟨by decide, by decide, by decide⟩, ⟨by decide, by decide, ?_⟩, rfl⟩
  intro _ i hi
  simp at hi
theorem witness_BudgetExhaustionEndsNoFrame :
    (instanceOf 1#32 .failFast).syncIn ∉ [0x11#8] ∧ ([0x11#8] : List Byte).length = (1#32 : Budget).toNat ∧
    ([0x11#8] : List Byte).length < (2#32 : Budget).toNat ∧
    (offered (instanceOf 2#32 .failFast) [0x1000#16, 0x1111#16, 0x1200#16]).port =
      encode .rxStart :: (byteWords [0x11#8] ++ encode .rxUnderrun :: []) := by decide
/-- The instance of program P7. -/
def loopback : Config := { instanceOf 1#32 .failFast with syncOut := 0xA6#8, addrOut := 0x02#8 }
/-- One payload byte, then the reader on the built frame. -/
def loopbackWords : List OpWord :=
  opWords (expand (.txFrame 0x07#8 [0x01#8])) ++
    encode .rxStart :: (byteWords (buildCommand loopback.syncOut loopback.addrOut 0x07#8 [0x01#8]) ++ [])
theorem witness_BuiltFrameIsAccepted :
    loopback.syncOut = loopback.syncIn ∧ loopback.addrOut = loopback.addrIn ∧ 1 ≤ loopback.maxResyncBytes.toNat ∧
    ([0x01#8] : List Byte).length ≤ 65533 ∧ (offered loopback loopbackWords).port = loopbackWords ∧
    (offered loopback loopbackWords).txState = .idle ∧ (offered loopback loopbackWords).rxState = .idle := by decide
theorem witness_PullInterfaceAgreesWithSteps :
    FramerInv { seeking 2#32 with port := eventWords [.byte 0x11#8, .underrun, .byte 0x00#8] ++ [0x0800#16] } :=
  ⟨by decide, by decide, by decide, by decide⟩
theorem witness_OutputsOnlyUnderTheirConditions :
    State.reset.rxFrameValid = false ∧ State.reset.txValid = false ∧ State.reset.rxStatus ≠ .channelFault ∧
    ({ State.reset with rxFrameValid := true, txValid := true, rxStatus := .channelFault } : State).txValid = true := by
  decide
theorem witness_HiddenStateReachesNoOutput : State.reset.rxFrameValid = false := rfl
theorem witness_FailureHidesTheFrame :
    ∃ t, Reachable Config.reference t ∧ t.rxStatus.isFailure = true := by
  obtain ⟨t, h, ht⟩ := exists_of_after (o := runSteps 2 (offered Config.reference [0x1000#16, 0x1200#16]))
    (p := fun t => t.rxStatus.isFailure) (by decide)
  exact ⟨t, reachable_run (reachable_offered _ _) h, ht⟩

end Sys2Proof.Tests
end

/-! # The full invariant along every run

`FramerInv` holds after reset and every step keeps it. Its conjuncts over the reader are proved through `ReadingInv`,
which says for one reading state at a time what the reader holds, and the bounds of 00_scope.md R13 follow from it. -/

namespace Sys2Proof.Machine

section

variable {s t : State} {b c : Byte} {q : RxState} {k : Failure}

/-! ### The frame builder -/

theorem execTxBegin_builderInv (e : execTxBegin c s = .next t) : BuilderInv t := by
  obtain ⟨-, rfl⟩ := execTxBegin_next e
  simp [BuilderInv]

theorem execTxPush_keeps_builderInv (h : BuilderInv s) (e : execTxPush b s = .next t) : BuilderInv t := by
  obtain ⟨hbuild, hroom, rfl⟩ := execTxPush_next e
  obtain ⟨-, hhidden, hempty, -⟩ := h
  have hvalid : s.txValid = false := hhidden hbuild
  exact ⟨by simpa using hroom, hhidden, hempty, by simp [hvalid]⟩

theorem execTxEnd_keeps_builderInv (h : BuilderInv s) (e : execTxEnd s = .next t) : BuilderInv t := by
  obtain ⟨-, -, rfl⟩ := execTxEnd_next e
  obtain ⟨hlen, -⟩ := h
  exact ⟨hlen, by simp, by simp, by simp⟩

/-- `tx_frame` is empty or a whole frame (10_state.md R28). -/
theorem BuilderInv.txFrame_length (h : BuilderInv s) :
    s.txFrame.length = 0 ∨ s.txFrame.length = s.txPayload.length + 7 := by
  obtain ⟨-, -, hempty, hframe⟩ := h
  cases hv : s.txValid with
  | false => exact .inl (by simp [hempty hv])
  | true => exact .inr (by rw [hframe hv, frame_length])

/-! ### What the reader holds in one reading state -/

/-- The clause of `ScanInv` for the reader state `q`. -/
def ScanFacts (q : RxState) (s : State) : Prop :=
  match q with
  | .idle => True
  | .seekSync => 1 ≤ s.rxBudget.toNat ∧ s.rxRaw = [] ∧ s.rxSum = 0#16 ∧ s.rxPayload = []
  | .seekAddr => s.rxRaw = [s.cfg.syncIn] ∧ s.rxSum = sum16 s.rxRaw ∧ s.rxPayload = []
  | .hdrCmd => s.rxRaw = [s.cfg.syncIn, s.cfg.addrIn] ∧ s.rxSum = sum16 s.rxRaw ∧ s.rxPayload = []
  | .lenHi => s.rxRaw = [s.cfg.syncIn, s.cfg.addrIn, s.rxCmd] ∧ s.rxSum = sum16 s.rxRaw ∧ s.rxPayload = []
  | .lenLo =>
    s.rxRaw = [s.cfg.syncIn, s.cfg.addrIn, s.rxCmd, hiByte s.rxLen] ∧ s.rxSum = sum16 s.rxRaw ∧ s.rxPayload = []
  | .payload =>
    s.rxRaw = scannedBody s ∧ s.rxSum = sum16 s.rxRaw ∧
      s.rxPayload.length + s.rxRemaining.toNat + 2 = s.rxLen.toNat ∧ 1 ≤ s.rxRemaining.toNat
  | .chkHi => s.rxRaw = scannedBody s ∧ s.rxSum = sum16 s.rxRaw ∧ s.rxPayload.length + 2 = s.rxLen.toNat
  | .chkLo =>
    s.rxRaw = scannedBody s ++ [s.rxChkHi] ∧ s.rxSum = sum16 (scannedBody s) ∧
      s.rxPayload.length + 2 = s.rxLen.toNat
  | .done => True

theorem scanInv_iff : ScanInv s ↔ ScanFacts s.rxState s := by
  unfold ScanInv ScanFacts
  cases s.rxState <;> simp

theorem scannedBody_length (s : State) : (scannedBody s).length = s.rxPayload.length + 5 :=
  frameBodyWith_length ..

/-- In a reading state there is room for one more byte of the frame (10_state.md R39, R40). -/
theorem ScanFacts.lengths (h : ScanFacts q s) (hq : q.isReading = true) :
    s.rxRaw.length + 1 ≤ maxFrame ∧ s.rxPayload.length ≤ maxPayload := by
  have hlen := s.rxLen.isLt
  have hbody := scannedBody_length s
  unfold maxFrame maxPayload
  cases q with
  | idle => cases hq
  | done => cases hq
  | seekSync => obtain ⟨-, hraw, -, hpay⟩ := h; simp [hraw, hpay]
  | seekAddr => obtain ⟨hraw, -, hpay⟩ := h; simp [hraw, hpay]
  | hdrCmd => obtain ⟨hraw, -, hpay⟩ := h; simp [hraw, hpay]
  | lenHi => obtain ⟨hraw, -, hpay⟩ := h; simp [hraw, hpay]
  | lenLo => obtain ⟨hraw, -, hpay⟩ := h; simp [hraw, hpay]
  | payload => obtain ⟨hraw, -, hcount, -⟩ := h; rw [hraw]; omega
  | chkHi => obtain ⟨hraw, -, hcount⟩ := h; rw [hraw]; omega
  | chkLo => obtain ⟨hraw, -, hcount⟩ := h; rw [hraw, List.length_append, List.length_singleton]; omega

/-- The reader's fields, `rx_state` apart, are as they stand in the reading state `q`. -/
structure ReadingInv (q : RxState) (s : State) : Prop where
  reads : q.isReading = true
  scan : ScanFacts q s
  busy : s.rxStatus = .busy
  frameHidden : s.rxFrameValid = false
  noCode : s.rxFaultCode = 0x00#8
  budget : s.rxBudget.toNat ≤ s.cfg.maxResyncBytes.toNat

/-- The conjuncts of `FramerInv` over the reader's fields. -/
abbrev ReaderInv (s : State) : Prop := ScanInv s ∧ OutcomeInv s ∧ BoundInv s

theorem ReadingInv.boundInv (h : ReadingInv q s) : BoundInv s := by
  obtain ⟨hraw, hpay⟩ := h.scan.lengths h.reads
  exact ⟨h.budget, hpay, by omega⟩

theorem ReaderInv.reading (h : ReaderInv s) (hq : s.rxState = q) (hr : q.isReading = true) : ReadingInv q s := by
  subst hq
  obtain ⟨hscan, ⟨hbusy, -, hvalid, hcode, -⟩, hbudget, -⟩ := h
  have hs : s.rxStatus = .busy := hbusy.mpr hr
  exact ⟨hr, scanInv_iff.mp hscan, hs, by simpa [hs] using hvalid, hcode (by simp [hs]), hbudget⟩

theorem ReadingInv.readerInv (h : ReadingInv q s) (hq : s.rxState = q) : ReaderInv s := by
  subst hq
  have hne : s.rxState ≠ .idle := fun hi => by simpa [hi, RxState.isReading] using h.reads
  exact ⟨scanInv_iff.mpr h.scan, by simp [OutcomeInv, h.busy, h.reads, h.frameHidden, h.noCode, hne], h.boundInv⟩

/-! ### The end of an invocation -/

/-- What a failure's kind says of the reader that raises it (60_exceptions.md R160 to R166). -/
def FailureWarranted (k : Failure) (s : State) : Prop :=
  match k with
  | .noFrame => s.rxBudget = 0#32
  | .underrun => True
  | .checksumMismatch => s.rxChk ≠ s.rxSum
  | .addrMismatch => s.cfg.addrPolicy = .failFast
  | .lengthInvalid => s.rxLen.toNat < 2
  | .channelFault _ => True

theorem raiseFailure_outcomeInv (hw : FailureWarranted k s) (hc : s.rxFaultCode = 0x00#8) :
    OutcomeInv (raiseFailure k s) := by
  cases k <;> simp_all [FailureWarranted, OutcomeInv, Failure.status, Failure.faultCode, RxState.isReading]

/-- An accepted frame leaves the outcome registers right when the fields it is read from are (R138). -/
theorem outcomeInv_of_ok (hstate : s.rxState = .done) (hok : s.rxStatus = .ok) (hvalid : s.rxFrameValid = true)
    (hcode : s.rxFaultCode = 0x00#8)
    (hframe : s.rxRaw = scannedBody s ++ [hiByte s.rxChk, loByte s.rxChk] ∧ s.rxChk = sum16 (scannedBody s) ∧
      s.rxPayload.length + 2 = s.rxLen.toNat) : OutcomeInv s := by
  simpa [OutcomeInv, RxState.isReading, hstate, hok, hvalid, hcode] using hframe

theorem raiseFailure_readerInv (hw : FailureWarranted k s) (hc : s.rxFaultCode = 0x00#8) (hb : BoundInv s) :
    ReaderInv (raiseFailure k s) :=
  ⟨scanInv_iff.mpr trivial, raiseFailure_outcomeInv hw hc, hb⟩

/-! ### The bytes of the reader's states -/

theorem rxSum_concat (h : s.rxSum = sum16 s.rxRaw) : s.rxSum + zext16 b = sum16 (s.rxRaw ++ [b]) := by
  rw [h, sum16_concat]

/-- One unit of the budget is spent and does not wrap (10_state.md R31). -/
theorem budget_spent {x m : Budget} (h0 : x ≠ 0#32) (h : x.toNat ≤ m.toNat) :
    (x - 1#32).toNat ≤ m.toNat := by
  bv_omega

theorem examine_readerInv (h : ReadingInv .seekSync s) (e : examine b s = .next t) : ReaderInv t := by
  obtain ⟨hpos, hcase⟩ := examine_next e
  obtain ⟨-, hraw, hsum, hpay⟩ := h.scan
  have hbudget := budget_spent hpos h.budget
  rcases hcase with ⟨rfl, rfl⟩ | ⟨-, hzero, rfl⟩ | ⟨-, hleft, rfl⟩
  · refine ReadingInv.readerInv (q := .seekAddr) ⟨rfl, ⟨rfl, ?_, hpay⟩, h.busy, h.frameHidden, h.noCode, hbudget⟩ rfl
    exact (sum16_singleton _).symm
  · obtain ⟨-, hlengths⟩ := h.boundInv
    exact raiseFailure_readerInv hzero h.noCode ⟨hbudget, hlengths⟩
  · have hone : 1 ≤ (s.rxBudget - 1#32).toNat := by bv_omega
    exact ReadingInv.readerInv (q := .seekSync)
      ⟨rfl, ⟨hone, hraw, hsum, hpay⟩, h.busy, h.frameHidden, h.noCode, hbudget⟩ rfl

theorem resyncByte_readerInv (h : ReadingInv .seekAddr s) (e : resyncByte b s = .next t) : ReaderInv t := by
  obtain ⟨-, -, hpay⟩ := h.scan
  rcases resyncByte_next e with ⟨hzero, rfl⟩ | ⟨hpos, he⟩
  · exact raiseFailure_readerInv hzero h.noCode ⟨h.budget, by simp [hpay], by simp⟩
  · have hone : 1 ≤ s.rxBudget.toNat := by bv_omega
    exact examine_readerInv (s := { s with rxRaw := [], rxSum := 0x0000#16 })
      ⟨rfl, ⟨hone, rfl, rfl, hpay⟩, h.busy, h.frameHidden, h.noCode, h.budget⟩ he

theorem seekAddrByte_readerInv (h : ReadingInv .seekAddr s) (e : seekAddrByte b s = .next t) : ReaderInv t := by
  obtain ⟨hraw, hsum, hpay⟩ := h.scan
  rcases seekAddrByte_next e with ⟨rfl, rfl⟩ | ⟨-, hpolicy, rfl⟩ | ⟨-, -, he⟩
  · exact ReadingInv.readerInv (q := .hdrCmd)
      ⟨rfl, ⟨by simp [hraw], rxSum_concat hsum, hpay⟩, h.busy, h.frameHidden, h.noCode, h.budget⟩ rfl
  · exact raiseFailure_readerInv hpolicy h.noCode h.boundInv
  · exact resyncByte_readerInv h he

theorem hdrCmdByte_readerInv (h : ReadingInv .hdrCmd s) (e : hdrCmdByte b s = .next t) : ReaderInv t := by
  obtain rfl := hdrCmdByte_next e
  obtain ⟨hraw, hsum, hpay⟩ := h.scan
  exact ReadingInv.readerInv (q := .lenHi)
    ⟨rfl, ⟨by simp [hraw], rxSum_concat hsum, hpay⟩, h.busy, h.frameHidden, h.noCode, h.budget⟩ rfl

theorem lenHiByte_readerInv (h : ReadingInv .lenHi s) (e : lenHiByte b s = .next t) : ReaderInv t := by
  obtain rfl := lenHiByte_next e
  obtain ⟨hraw, hsum, hpay⟩ := h.scan
  exact ReadingInv.readerInv (q := .lenLo)
    ⟨rfl, ⟨by simp [hraw], rxSum_concat hsum, hpay⟩, h.busy, h.frameHidden, h.noCode, h.budget⟩ rfl

/-- The reader after the length's low byte: `CHK_HI` for an empty payload, else `PAYLOAD` (41_response_reader.md R131). -/
theorem lenLoByte_readerInv (h : ReadingInv .lenLo s) (e : lenLoByte b s = .next t) : ReaderInv t := by
  obtain ⟨hraw, hsum, hpay⟩ := h.scan
  obtain ⟨hroom, hlen⟩ := h.scan.lengths h.reads
  rcases lenLoByte_next e with ⟨hshort, rfl⟩ | ⟨hlong, rfl⟩
  · exact raiseFailure_readerInv hshort h.noCode ⟨h.budget, hlen, by simpa using hroom⟩
  · generalize hL : joinBytes (hiByte s.rxLen) b = len at hlong ⊢
    have hbody : s.rxRaw ++ [b] = frameBodyWith s.cfg.syncIn s.cfg.addrIn s.rxCmd len s.rxPayload := by
      simp [hraw, hpay, frameBodyWith, ← hL]
    by_cases htwo : len = 2#16
    · refine ReadingInv.readerInv (q := .chkHi)
        ⟨rfl, ⟨hbody, rxSum_concat hsum, ?_⟩, h.busy, h.frameHidden, h.noCode, h.budget⟩ (if_pos htwo)
      simp [hpay, htwo]
    · have hrest : (len - 2#16).toNat + 2 = len.toNat := by bv_omega
      have hone : 1 ≤ (len - 2#16).toNat := by bv_omega
      refine ReadingInv.readerInv (q := .payload)
        ⟨rfl, ⟨hbody, rxSum_concat hsum, ?_, hone⟩, h.busy, h.frameHidden, h.noCode, h.budget⟩ (if_neg htwo)
      simpa [hpay] using hrest

/-- The reader after a payload byte: `CHK_HI` after the last one, else `PAYLOAD` (41_response_reader.md R132). -/
theorem payloadByte_readerInv (h : ReadingInv .payload s) (e : payloadByte b s = .next t) : ReaderInv t := by
  obtain ⟨hraw, hsum, hcount, -⟩ := h.scan
  obtain ⟨hpos, rfl⟩ := payloadByte_next e
  have hbody : s.rxRaw ++ [b] =
      frameBodyWith s.cfg.syncIn s.cfg.addrIn s.rxCmd s.rxLen (s.rxPayload ++ [b]) := by
    rw [frameBodyWith_concat, hraw, scannedBody]
  have hspent : (s.rxRemaining - 1#16).toNat + 1 = s.rxRemaining.toNat := by bv_omega
  have hcount' : (s.rxPayload ++ [b]).length + (s.rxRemaining - 1#16).toNat + 2 = s.rxLen.toNat := by
    simp only [List.length_append, List.length_singleton]; omega
  by_cases hlast : s.rxRemaining - 1#16 = 0#16
  · exact ReadingInv.readerInv (q := .chkHi)
      ⟨rfl, ⟨hbody, rxSum_concat hsum, by simpa [hlast] using hcount'⟩,
        h.busy, h.frameHidden, h.noCode, h.budget⟩ (if_pos hlast)
  · have hone : 1 ≤ (s.rxRemaining - 1#16).toNat := by bv_omega
    exact ReadingInv.readerInv (q := .payload)
      ⟨rfl, ⟨hbody, rxSum_concat hsum, hcount', hone⟩,
        h.busy, h.frameHidden, h.noCode, h.budget⟩ (if_neg hlast)

theorem chkHiByte_readerInv (h : ReadingInv .chkHi s) (e : chkHiByte b s = .next t) : ReaderInv t := by
  obtain rfl := chkHiByte_next e
  obtain ⟨hraw, hsum, hcount⟩ := h.scan
  exact ReadingInv.readerInv (q := .chkLo)
    ⟨rfl, ⟨congrArg (· ++ [b]) hraw, hraw ▸ hsum, hcount⟩, h.busy, h.frameHidden, h.noCode, h.budget⟩ rfl

/-- The validation of a whole frame (41_response_reader.md R134, R138). -/
theorem chkLoByte_readerInv (h : ReadingInv .chkLo s) (e : chkLoByte b s = .next t) : ReaderInv t := by
  obtain ⟨hraw, hsum, hcount⟩ := h.scan
  obtain ⟨hroom, hlen⟩ := h.scan.lengths h.reads
  have hbound : (s.rxRaw ++ [b]).length ≤ maxFrame := by simpa using hroom
  rcases chkLoByte_next e with ⟨hmatch, rfl⟩ | ⟨hdiffer, rfl⟩
  · have hframe : s.rxRaw ++ [b] =
        scannedBody s ++ [hiByte (joinBytes s.rxChkHi b), loByte (joinBytes s.rxChkHi b)] := by simp [hraw]
    exact ⟨scanInv_iff.mpr trivial, outcomeInv_of_ok rfl rfl rfl h.noCode ⟨hframe, hmatch.trans hsum, hcount⟩,
      h.budget, hlen, hbound⟩
  · exact raiseFailure_readerInv hdiffer h.noCode ⟨h.budget, hlen, hbound⟩

/-! ### The reader's operations -/

theorem execRxStart_readerInv (e : execRxStart s = .next t) : ReaderInv t := by
  obtain ⟨-, ⟨hzero, rfl⟩ | ⟨hpos, rfl⟩⟩ := execRxStart_next e
  · exact raiseFailure_readerInv hzero rfl ⟨le_rfl, Nat.zero_le _, Nat.zero_le _⟩
  · have hone : 1 ≤ s.cfg.maxResyncBytes.toNat := by bv_omega
    exact ReadingInv.readerInv (q := .seekSync) ⟨rfl, ⟨hone, rfl, rfl, rfl⟩, rfl, rfl, rfl, le_rfl⟩ rfl

theorem execRxByte_keeps_readerInv (h : ReaderInv s) (e : execRxByte b s = .next t) : ReaderInv t := by
  rcases execRxByte_next e with ⟨hq, he⟩ | ⟨hq, he⟩ | ⟨hq, he⟩ | ⟨hq, he⟩ | ⟨hq, he⟩ | ⟨hq, he⟩ | ⟨hq, he⟩ | ⟨hq, he⟩
  · exact examine_readerInv (h.reading hq rfl) he
  · exact seekAddrByte_readerInv (h.reading hq rfl) he
  · exact hdrCmdByte_readerInv (h.reading hq rfl) he
  · exact lenHiByte_readerInv (h.reading hq rfl) he
  · exact lenLoByte_readerInv (h.reading hq rfl) he
  · exact payloadByte_readerInv (h.reading hq rfl) he
  · exact chkHiByte_readerInv (h.reading hq rfl) he
  · exact chkLoByte_readerInv (h.reading hq rfl) he

theorem execRxUnderrun_keeps_readerInv (h : ReaderInv s) (e : execRxUnderrun s = .next t) : ReaderInv t := by
  obtain ⟨hr, rfl⟩ := execRxUnderrun_next e
  have hreading := h.reading rfl hr
  exact raiseFailure_readerInv trivial hreading.noCode hreading.boundInv

theorem execRxChfault_keeps_readerInv (h : ReaderInv s) (e : execRxChfault c s = .next t) : ReaderInv t := by
  obtain ⟨hr, rfl⟩ := execRxChfault_next e
  have hreading := h.reading rfl hr
  exact raiseFailure_readerInv trivial hreading.noCode hreading.boundInv

/-! ### The reader's operations leave the rest alone -/

/-- Nothing outside the reader's fields differs (40_frame_codec.md R109; 10_state.md R24). -/
def ReaderOnly (s t : State) : Prop :=
  t.txState = s.txState ∧ t.txCmd = s.txCmd ∧ t.txPayload = s.txPayload ∧ t.txFrame = s.txFrame ∧
    t.txValid = s.txValid ∧ t.csumAcc = s.csumAcc ∧ t.cfg = s.cfg ∧ t.port = s.port

theorem examine_readerOnly (e : examine b s = .next t) : ReaderOnly s t := by
  obtain ⟨-, ⟨-, rfl⟩ | ⟨-, -, rfl⟩ | ⟨-, -, rfl⟩⟩ := examine_next e <;> simp [ReaderOnly]

theorem seekAddrByte_readerOnly (e : seekAddrByte b s = .next t) : ReaderOnly s t := by
  rcases seekAddrByte_next e with ⟨-, rfl⟩ | ⟨-, -, rfl⟩ | ⟨-, -, he⟩
  · simp [ReaderOnly]
  · simp [ReaderOnly]
  · rcases resyncByte_next he with ⟨-, rfl⟩ | ⟨-, hexamine⟩
    · simp [ReaderOnly]
    · exact examine_readerOnly (s := { s with rxRaw := [], rxSum := 0x0000#16 }) hexamine

theorem execRxStart_readerOnly (e : execRxStart s = .next t) : ReaderOnly s t := by
  obtain ⟨-, ⟨-, rfl⟩ | ⟨-, rfl⟩⟩ := execRxStart_next e <;> simp [ReaderOnly]

theorem execRxByte_readerOnly (e : execRxByte b s = .next t) : ReaderOnly s t := by
  rcases execRxByte_next e with ⟨-, he⟩ | ⟨-, he⟩ | ⟨-, he⟩ | ⟨-, he⟩ | ⟨-, he⟩ | ⟨-, he⟩ | ⟨-, he⟩ | ⟨-, he⟩
  · exact examine_readerOnly he
  · exact seekAddrByte_readerOnly he
  · obtain rfl := hdrCmdByte_next he; simp [ReaderOnly]
  · obtain rfl := lenHiByte_next he; simp [ReaderOnly]
  · obtain ⟨-, rfl⟩ | ⟨-, rfl⟩ := lenLoByte_next he <;> simp [ReaderOnly]
  · obtain ⟨-, rfl⟩ := payloadByte_next he; simp [ReaderOnly]
  · obtain rfl := chkHiByte_next he; simp [ReaderOnly]
  · obtain ⟨-, rfl⟩ | ⟨-, rfl⟩ := chkLoByte_next he <;> simp [ReaderOnly]

theorem execRxUnderrun_readerOnly (e : execRxUnderrun s = .next t) : ReaderOnly s t := by
  obtain ⟨-, rfl⟩ := execRxUnderrun_next e; simp [ReaderOnly]

theorem execRxChfault_readerOnly (e : execRxChfault c s = .next t) : ReaderOnly s t := by
  obtain ⟨-, rfl⟩ := execRxChfault_next e; simp [ReaderOnly]

theorem ReaderOnly.builderInv (h : ReaderOnly s t) (hs : BuilderInv s) : BuilderInv t := by
  obtain ⟨hstate, hcmd, hpayload, hframe, hvalid, -, hcfg, -⟩ := h
  rw [BuilderInv, hstate, hcmd, hpayload, hframe, hvalid, hcfg]
  exact hs

/-! ### Every operation, every step, every run -/

theorem framerInv_resetWith (cfg : Config) : FramerInv (State.resetWith cfg) := by
  refine ⟨?_, scanInv_iff.mpr trivial, ?_, Nat.zero_le _, Nat.zero_le _, Nat.zero_le _⟩
  · simp [BuilderInv, State.resetWith]
  · simp [OutcomeInv, State.resetWith, RxState.isReading]

/-- An operation of the builder leaves the reader's fields as they are, and one of the reader the builder's
(40_frame_codec.md R109), so each case keeps the other part's conjuncts as they stand. -/
theorem exec_keeps_framerInv {i : Instr} (h : FramerInv s) (e : exec i s = .next t) : FramerInv t := by
  obtain ⟨hbuilder, hreader⟩ := h
  cases i with
  | txBegin c =>
    refine ⟨execTxBegin_builderInv e, ?_⟩
    obtain ⟨-, rfl⟩ := execTxBegin_next e
    exact hreader
  | txPush b =>
    refine ⟨execTxPush_keeps_builderInv hbuilder e, ?_⟩
    obtain ⟨-, -, rfl⟩ := execTxPush_next e
    exact hreader
  | txEnd =>
    refine ⟨execTxEnd_keeps_builderInv hbuilder e, ?_⟩
    obtain ⟨-, -, rfl⟩ := execTxEnd_next e
    exact hreader
  | csumClr => obtain rfl := execCsumClr_next e; exact ⟨hbuilder, hreader⟩
  | csumAdd b => obtain rfl := execCsumAdd_next e; exact ⟨hbuilder, hreader⟩
  | rxStart => exact ⟨(execRxStart_readerOnly e).builderInv hbuilder, execRxStart_readerInv e⟩
  | rxByte b => exact ⟨(execRxByte_readerOnly e).builderInv hbuilder, execRxByte_keeps_readerInv hreader e⟩
  | rxUnderrun => exact ⟨(execRxUnderrun_readerOnly e).builderInv hbuilder, execRxUnderrun_keeps_readerInv hreader e⟩
  | rxChfault c => exact ⟨(execRxChfault_readerOnly e).builderInv hbuilder, execRxChfault_keeps_readerInv hreader e⟩

theorem step_keeps_framerInv (h : FramerInv s) (e : step s = .next t) : FramerInv t := by
  rcases step_next e with ⟨-, rfl⟩ | ⟨-, rest, i, -, -, he⟩
  · exact h
  · exact exec_keeps_framerInv (s := { s with port := rest }) h he

/-- The induction over runs, once: no run leaves the full invariant. -/
theorem Reachable.framerInv {cfg : Config} (h : Reachable cfg s) : FramerInv s := by
  induction h with
  | reset => exact framerInv_resetWith cfg
  | offer s ws _ ih => exact ih
  | step s t _ e ih => exact step_keeps_framerInv ih e
  | resetEvent s _ _ => exact framerInv_resetWith s.cfg

end

/-- Settles O45: the bounds are read off the full invariant. -/
theorem sequencesStayWithinCapacity : Obligations.SequencesStayWithinCapacity := by
  intro cfg s hs
  obtain ⟨hbuilder, -, -, -, hrxPayload, hrxRaw⟩ := hs.framerInv
  have htxFrame := hbuilder.txFrame_length
  obtain ⟨htxPayload, -⟩ := hbuilder
  unfold maxPayload at htxPayload hrxPayload
  unfold maxFrame at hrxRaw
  exact ⟨htxPayload, by omega, hrxPayload, hrxRaw⟩

end Sys2Proof.Machine

/-! # The state family (10_state.md)

What an operation writes and what it leaves alone, what a step does with the word it takes, the codes of the registers,
reset and the observation port; then the invariants and the run of one invocation that rest on them. -/

namespace Sys2Proof.Machine

open Sys2Proof.Claims

section

variable {s t : State} {b : Byte} {i : Instr} {n : Nat} {w : OpWord} {rest : List OpWord}

/-! ### The registers, the step and reset -/

/-- The reading states are the codes 1 to 8 (10_state.md R30). -/
theorem isReading_iff_code (q : RxState) : q.isReading = true ↔ 1 ≤ q.code.toNat ∧ q.code.toNat ≤ 8 := by
  cases q <;> decide

theorem step_operation (hp : s.port = w :: rest) (hd : decode w = .instr i) :
    step s = exec i { s with port := rest } := by
  rw [step, readPort_operation hp hd]

/-! ### The decoder and the opcode map (30_encoding.md R80 to R83) -/

theorem decode_encode (i : Instr) : decode (encode i) = .instr i := by
  cases i <;> exact decode_opWord ..

theorem decodeOperandless_eq_instr {j : Instr} {imm : Byte} (h : decodeOperandless j imm = .instr i) :
    imm = 0x00#8 ∧ i = j := by
  unfold decodeOperandless at h
  split at h
  · exact ⟨‹_›, by cases h; rfl⟩
  · cases h

/-- The decoder answers an operation only on that operation's own code and operand. -/
theorem decodeFields_eq_instr {op imm : Byte} (h : decodeFields op imm = .instr i) :
    op = opcodeOf i ∧ imm = operandOf i := by
  unfold decodeFields at h
  split at h
  -- the operations with an operand, those without one, and the reserved codes
  case h_1 hop | h_2 hop | h_5 hop | h_7 hop | h_9 hop =>
    cases h
    exact ⟨BitVec.eq_of_toNat_eq hop, rfl⟩
  case h_3 hop | h_4 hop | h_6 hop | h_8 hop =>
    obtain ⟨himm, rfl⟩ := decodeOperandless_eq_instr h
    exact ⟨BitVec.eq_of_toNat_eq hop, himm⟩
  case h_10 => cases h

theorem eq_encode_of_decode (h : decode w = .instr i) : w = encode i := by
  obtain ⟨hop, himm⟩ := decodeFields_eq_instr h
  rw [encode, ← hop, ← himm, opWord_fields]

theorem offerWellFormed_encode (i : Instr) : offerWellFormed i.issuer (encode i) = true := by
  have hlegal : Laws.EncodeLegal.Statement i := by
    cases i with
    | txBegin c => exact Laws.EncodeLegal.txBegin c
    | txPush b => exact Laws.EncodeLegal.txPush b
    | txEnd => exact Laws.EncodeLegal.txEnd
    | csumClr => exact Laws.EncodeLegal.csumClr
    | csumAdd b => exact Laws.EncodeLegal.csumAdd b
    | rxStart => exact Laws.EncodeLegal.rxStart
    | rxByte b => exact Laws.EncodeLegal.rxByte b
    | rxUnderrun => exact Laws.EncodeLegal.rxUnderrun
    | rxChfault c => exact Laws.EncodeLegal.rxChfault c
  obtain ⟨-, -, hoffer⟩ := hlegal
  exact hoffer

/-- The mask of a row with an operand keeps `OP`. -/
theorem opField_mask (w : OpWord) : opField (w &&& 0xFF00#16) = opField w := by
  have hmask : (0xFF00#16).extractLsb' 8 8 = BitVec.allOnes 8 := by decide
  rw [opField, BitVec.extractLsb'_and, hmask, BitVec.and_allOnes, opField]

/-- A word of a row with an operand decodes by the row's code. -/
theorem decode_of_byte_row {n : String} {op : Byte} {a : Agent}
    (h : OpRow.covers ⟨n, 0xFF00#16, opWord op 0x00#8, a⟩ w = true) : decode w = decodeFields op (immField w) := by
  have hvalue : w &&& 0xFF00#16 = opWord op 0x00#8 := by simpa [OpRow.covers] using h
  have hop : opField w = op := by rw [← opField_mask, hvalue, opField_opWord]
  rw [decode, hop]

/-- A row without an operand has one word. -/
theorem eq_of_fixed_row {n : String} {v : OpWord} {a : Agent} (h : OpRow.covers ⟨n, 0xFFFF#16, v, a⟩ w = true) :
    w = v := by
  have hmask : (0xFFFF#16) = BitVec.allOnes 16 := by decide
  rwa [OpRow.covers, beq_iff_eq, hmask, BitVec.and_allOnes] at h

/-- The word of a row decodes to an operation which the row's agent issues. -/
theorem decode_of_row {r : OpRow} (hr : r ∈ opcodeMap) (h : r.covers w = true) :
    ∃ i, decode w = .instr i ∧ i.issuer = r.issuer := by
  simp only [opcodeMap, List.mem_cons, List.not_mem_nil, or_false] at hr
  rcases hr with rfl | rfl | rfl | rfl | rfl | rfl | rfl | rfl | rfl
  · exact ⟨.txBegin (immField w), decode_of_byte_row (op := 0x01#8) h, rfl⟩
  · exact ⟨.txPush (immField w), decode_of_byte_row (op := 0x02#8) h, rfl⟩
  · exact ⟨.txEnd, eq_of_fixed_row h ▸ decode_word_txEnd, rfl⟩
  · exact ⟨.csumClr, eq_of_fixed_row h ▸ decode_word_csumClr, rfl⟩
  · exact ⟨.csumAdd (immField w), decode_of_byte_row (op := 0x09#8) h, rfl⟩
  · exact ⟨.rxStart, eq_of_fixed_row h ▸ decode_word_rxStart, rfl⟩
  · exact ⟨.rxByte (immField w), decode_of_byte_row (op := 0x11#8) h, rfl⟩
  · exact ⟨.rxUnderrun, eq_of_fixed_row h ▸ decode_word_rxUnderrun, rfl⟩
  · exact ⟨.rxChfault (immField w), decode_of_byte_row (op := 0x13#8) h, rfl⟩

/-! ### What an operation leaves alone, by part (40_frame_codec.md R109) -/

theorem exec_of_builder (hp : partOf i = .builder) (e : exec i s = .next t) :
    SameEnvironment s t ∧ SameChecksum s t ∧ SameReader s t := by
  cases i with
  | txBegin c => obtain ⟨-, rfl⟩ := execTxBegin_next e; simp [SameEnvironment, SameReader]
  | txPush b => obtain ⟨-, -, rfl⟩ := execTxPush_next e; simp [SameEnvironment, SameReader]
  | txEnd => obtain ⟨-, -, rfl⟩ := execTxEnd_next e; simp [SameEnvironment, SameReader]
  | csumClr | csumAdd _ | rxStart | rxByte _ | rxUnderrun | rxChfault _ => cases hp

theorem exec_of_checksum (hp : partOf i = .checksum) (e : exec i s = .next t) :
    SameEnvironment s t ∧ SameBuilder s t ∧ SameReader s t := by
  cases i with
  | csumClr => obtain rfl := execCsumClr_next e; simp [SameEnvironment, SameBuilder, SameReader]
  | csumAdd b => obtain rfl := execCsumAdd_next e; simp [SameEnvironment, SameBuilder, SameReader]
  | txBegin _ | txPush _ | txEnd | rxStart | rxByte _ | rxUnderrun | rxChfault _ => cases hp

theorem exec_of_reader (hp : partOf i = .reader) (e : exec i s = .next t) : ReaderOnly s t := by
  cases i with
  | rxStart => exact execRxStart_readerOnly e
  | rxByte b => exact execRxByte_readerOnly e
  | rxUnderrun => exact execRxUnderrun_readerOnly e
  | rxChfault c => exact execRxChfault_readerOnly e
  | txBegin _ | txPush _ | txEnd | csumClr | csumAdd _ => cases hp

theorem ReaderOnly.sameParts (h : ReaderOnly s t) : SameEnvironment s t ∧ SameBuilder s t ∧ SameChecksum s t := by
  obtain ⟨hstate, hcmd, hpayload, hframe, hvalid, hcsum, hcfg, hport⟩ := h
  exact ⟨⟨hcfg, hport⟩, ⟨hstate, hcmd, hpayload, hframe, hvalid⟩, hcsum⟩

/-- No operation writes a parameter or the port (10_state.md R24). -/
theorem exec_sameEnvironment (e : exec i s = .next t) : SameEnvironment s t := by
  cases hp : partOf i with
  | builder => exact (exec_of_builder hp e).left
  | checksum => exact (exec_of_checksum hp e).left
  | reader => exact (exec_of_reader hp e).sameParts.left

/-- Only an operation of the reader writes a field of the reader. -/
theorem exec_sameReader (hp : partOf i ≠ .reader) (e : exec i s = .next t) : SameReader s t := by
  cases hpart : partOf i with
  | builder => exact (exec_of_builder hpart e).right.right
  | checksum => exact (exec_of_checksum hpart e).right.right
  | reader => exact absurd hpart hp

theorem step_cfg (e : step s = .next t) : t.cfg = s.cfg := by
  rcases step_next e with ⟨-, rfl⟩ | ⟨-, rest, i, -, -, he⟩
  · rfl
  · exact (exec_sameEnvironment he).left

/-! ### What a delivered byte writes, by reader state -/

/-- The reader's fields that `RX_BYTE` may have written, from the reader state it was taken in (10_state.md R31 to
R40). -/
def ByteWrites (s t : State) : Prop :=
  (t.rxBudget ≠ s.rxBudget → s.rxState = .seekSync ∨ s.rxState = .seekAddr) ∧
  (t.rxSum ≠ s.rxSum → s.rxState ≠ .chkHi ∧ s.rxState ≠ .chkLo) ∧
  t.rxFaultCode = s.rxFaultCode ∧
  (t.rxCmd ≠ s.rxCmd → s.rxState = .hdrCmd) ∧
  (t.rxLen ≠ s.rxLen → s.rxState = .lenHi ∨ s.rxState = .lenLo) ∧
  (t.rxRemaining ≠ s.rxRemaining → s.rxState = .lenLo ∨ s.rxState = .payload) ∧
  (t.rxChkHi ≠ s.rxChkHi → s.rxState = .chkHi) ∧
  (t.rxChk ≠ s.rxChk → s.rxState = .chkLo) ∧
  (t.rxPayload ≠ s.rxPayload → s.rxState = .payload) ∧
  (t.rxStatus ≠ s.rxStatus → t.rxState = .done) ∧
  (t.rxFrameValid ≠ s.rxFrameValid →
    (t.rxState = .done ∧ t.rxStatus.isFailure = true ∧ t.rxFrameValid = false) ∨
    (s.rxState = .chkLo ∧ t.rxStatus = .ok ∧ t.rxFrameValid = true))

theorem examine_byteWrites (hq : s.rxState = .seekSync ∨ s.rxState = .seekAddr) (e : examine b s = .next t) :
    ByteWrites s t := by
  have hsum : s.rxState ≠ .chkHi ∧ s.rxState ≠ .chkLo := by
    rcases hq with hq | hq <;> simp [hq]
  obtain ⟨-, ⟨-, rfl⟩ | ⟨-, -, rfl⟩ | ⟨-, -, rfl⟩⟩ := examine_next e
  · simp [ByteWrites, hq, hsum]
  · simp [ByteWrites, hq, Failure.faultCode, Failure.status, RxStatus.isFailure]
  · simp [ByteWrites, hq]

theorem seekAddrByte_byteWrites (hq : s.rxState = .seekAddr) (e : seekAddrByte b s = .next t) : ByteWrites s t := by
  rcases seekAddrByte_next e with ⟨-, rfl⟩ | ⟨-, -, rfl⟩ | ⟨-, -, he⟩
  · simp [ByteWrites, hq]
  · simp [ByteWrites, Failure.faultCode, Failure.status, RxStatus.isFailure]
  · rcases resyncByte_next he with ⟨-, rfl⟩ | ⟨-, hexamine⟩
    · simp [ByteWrites, hq, Failure.faultCode, Failure.status, RxStatus.isFailure]
    · obtain ⟨hbudget, -, hothers⟩ :=
        examine_byteWrites (s := { s with rxRaw := [], rxSum := 0x0000#16 }) (.inr hq) hexamine
      exact ⟨hbudget, by simp [hq], hothers⟩

theorem execRxByte_byteWrites (e : execRxByte b s = .next t) : ByteWrites s t := by
  rcases execRxByte_next e with ⟨hq, he⟩ | ⟨hq, he⟩ | ⟨hq, he⟩ | ⟨hq, he⟩ | ⟨hq, he⟩ | ⟨hq, he⟩ | ⟨hq, he⟩ | ⟨hq, he⟩
  · exact examine_byteWrites (.inl hq) he
  · exact seekAddrByte_byteWrites hq he
  · obtain rfl := hdrCmdByte_next he; simp [ByteWrites, hq]
  · obtain rfl := lenHiByte_next he; simp [ByteWrites, hq]
  · obtain ⟨-, rfl⟩ | ⟨-, rfl⟩ := lenLoByte_next he
    · simp [ByteWrites, hq, Failure.faultCode, Failure.status, RxStatus.isFailure]
    · simp [ByteWrites, hq]
  · obtain ⟨-, rfl⟩ := payloadByte_next he; simp [ByteWrites, hq]
  · obtain rfl := chkHiByte_next he; simp [ByteWrites, hq]
  · obtain ⟨-, rfl⟩ | ⟨-, rfl⟩ := chkLoByte_next he
    · simp [ByteWrites, hq]
    · simp [ByteWrites, hq, Failure.faultCode, Failure.status, RxStatus.isFailure]

theorem execRxByte_of_seekSync (hq : s.rxState = .seekSync) : execRxByte b s = examine b s := by
  simp [execRxByte, hq, seekSyncByte]

theorem execRxByte_of_seekAddr (hq : s.rxState = .seekAddr) : execRxByte b s = seekAddrByte b s := by
  simp [execRxByte, hq]

/-! ### The read budget (10_state.md R31) -/

theorem examine_budget (e : examine b s = .next t) : t.rxBudget.toNat + 1 = s.rxBudget.toNat := by
  obtain ⟨hpos, hcase⟩ := examine_next e
  have hspent : (s.rxBudget - 1#32).toNat + 1 = s.rxBudget.toNat := by bv_omega
  rcases hcase with ⟨-, rfl⟩ | ⟨-, -, rfl⟩ | ⟨-, -, rfl⟩ <;> exact hspent

theorem seekAddrByte_budget (e : seekAddrByte b s = .next t) :
    t.rxBudget = s.rxBudget ∨ t.rxBudget.toNat + 1 = s.rxBudget.toNat := by
  rcases seekAddrByte_next e with ⟨-, rfl⟩ | ⟨-, -, rfl⟩ | ⟨-, -, he⟩
  · exact .inl rfl
  · exact .inl rfl
  · rcases resyncByte_next he with ⟨-, rfl⟩ | ⟨-, hexamine⟩
    · exact .inl rfl
    · exact .inr (examine_budget (s := { s with rxRaw := [], rxSum := 0x0000#16 }) hexamine)

/-- Only the two seeking states touch the budget, and they spend at most one unit. -/
theorem execRxByte_budget (e : execRxByte b s = .next t) :
    t.rxBudget = s.rxBudget ∨ t.rxBudget.toNat + 1 = s.rxBudget.toNat := by
  obtain ⟨hseeks, -⟩ := execRxByte_byteWrites e
  by_cases hsame : t.rxBudget = s.rxBudget
  · exact .inl hsame
  · rcases hseeks hsame with hq | hq
    · rw [execRxByte_of_seekSync hq] at e
      exact .inr (examine_budget e)
    · rw [execRxByte_of_seekAddr hq] at e
      exact seekAddrByte_budget e

/-! ### The outcome registers and the observation port (10_state.md R41, R42) -/

theorem eq_done_of_not_reading {q : RxState} (hidle : q ≠ .idle) (hreads : q.isReading ≠ true) : q = .done := by
  cases q <;> simp_all [RxState.isReading]

/-- A status that is neither `NONE` nor `BUSY` stands only in `RX_DONE` (60_exceptions.md R173). -/
theorem OutcomeInv.rxState_eq_done (h : OutcomeInv s) (hnone : s.rxStatus ≠ .none) (hbusy : s.rxStatus ≠ .busy) :
    s.rxState = .done := by
  obtain ⟨hreads, hidle, -⟩ := h
  exact eq_done_of_not_reading (fun hq => hnone (hidle.mpr hq)) (fun hr => hbusy (hreads.mpr hr))

theorem isFailure_ne {x : RxStatus} (h : x.isFailure = true) : x ≠ .none ∧ x ≠ .busy ∧ x ≠ .ok := by
  cases x <;> simp_all [RxStatus.isFailure]

theorem offeredWhen_true (v : OutputValue) : offeredWhen true v = some v := rfl

theorem offeredWhen_false (v : OutputValue) : offeredWhen false v = none := rfl

/-- The five outputs of the accepted frame have no value while it is not valid (10_state.md R41(b), (c)). -/
theorem observe_frame_hidden {o : Output} (hv : s.rxFrameValid = false)
    (ho : o = .rxRaw ∨ o = .rxCmd ∨ o = .rxPayload ∨ o = .rxLen ∨ o = .rxChk) : observe o s = none := by
  rcases ho with rfl | rfl | rfl | rfl | rfl <;> simp [observe, hv, offeredWhen_false]

theorem readOutput_of_none {o : Output} (h : observe o s = none) : readOutput o s = .refused .outputNotValid := by
  simp [readOutput, h]

/-! ### The reader invariants of 10_state.md R44 -/

/-- From `SEEK_ADDR` to `CHK_HI` the sum is over all of `rx_raw`, which begins with the sync byte (R44(c)). -/
theorem ScanFacts.summed {q : RxState} (h : ScanFacts q s) (hlow : 2 ≤ q.code.toNat) (hhigh : q.code.toNat ≤ 7) :
    s.rxSum = sum16 s.rxRaw ∧ s.rxRaw.head? = some s.cfg.syncIn := by
  cases q with
  | idle | seekSync => simp [RxState.code] at hlow
  | chkLo | done => simp [RxState.code] at hhigh
  | seekAddr => obtain ⟨hraw, hsum, -⟩ := h; exact ⟨hsum, by simp [hraw]⟩
  | hdrCmd => obtain ⟨hraw, hsum, -⟩ := h; exact ⟨hsum, by simp [hraw]⟩
  | lenHi => obtain ⟨hraw, hsum, -⟩ := h; exact ⟨hsum, by simp [hraw]⟩
  | lenLo => obtain ⟨hraw, hsum, -⟩ := h; exact ⟨hsum, by simp [hraw]⟩
  | payload => obtain ⟨hraw, hsum, -⟩ := h; exact ⟨hsum, by simp [hraw, scannedBody, frameBodyWith]⟩
  | chkHi => obtain ⟨hraw, hsum, -⟩ := h; exact ⟨hsum, by simp [hraw, scannedBody, frameBodyWith]⟩

theorem FramerInv.readerInvariants (h : FramerInv s) : ReaderInvariants s := by
  obtain ⟨-, hscan, houtcome, -⟩ := h
  have hfacts := scanInv_iff.mp hscan
  have hdone := houtcome.rxState_eq_done
  obtain ⟨hsync, -, -, -, -, hpayload, hchkHi, hchkLo⟩ := hscan
  obtain ⟨hbusy, -, hvalid, -⟩ := houtcome
  refine ⟨hbusy.trans (isReading_iff_code _), ?sync, ?summed, ?chkLo, ?payload, ?length, ?valid⟩
  case sync => intro hq; obtain ⟨hone, hraw, hsum, -⟩ := hsync hq; exact ⟨hone, hraw, hsum⟩
  case summed => rintro ⟨hlow, hhigh⟩; exact hfacts.summed hlow hhigh
  case chkLo => intro hq; obtain ⟨hraw, hsum, -⟩ := hchkLo hq; simpa [hraw] using hsum
  case payload => intro hq; obtain ⟨-, -, hcount, hone⟩ := hpayload hq; exact ⟨hcount, hone⟩
  case length =>
    rintro (hq | hq)
    · obtain ⟨-, -, hcount⟩ := hchkHi hq; exact hcount
    · obtain ⟨-, -, hcount⟩ := hchkLo hq; exact hcount
  case valid =>
    refine ⟨fun hv => ?_, fun ⟨_, hok⟩ => hvalid.mpr hok⟩
    have hok := hvalid.mp hv
    exact ⟨hdone (by simp [hok]) (by simp [hok]), hok⟩

/-- A run never changes the parameters (10_state.md R24). -/
theorem Reachable.cfg_eq {cfg : Config} (h : Reachable cfg s) : s.cfg = cfg := by
  induction h with
  | reset => rfl
  | offer s ws _ ih => exact ih
  | step s t _ e ih => exact (step_cfg e).trans ih
  | resetEvent s _ ih => exact ih

/-! ### The model's faults -/

theorem execTxEnd_noFault (h : s.txPayload.length ≤ maxPayload) : noFault (execTxEnd s) = true := by
  unfold execTxEnd
  split
  · rfl
  · rw [if_pos h]; rfl

theorem examine_noFault (h : 1 ≤ s.rxBudget.toNat) : noFault (examine b s) = true := by
  have hpos : s.rxBudget ≠ 0#32 := by bv_omega
  rw [examine, if_neg hpos]
  dsimp only
  split
  · rfl
  · split <;> rfl

/-- A resync examines only with budget left (41_response_reader.md R128). -/
theorem resyncByte_noFault (b : Byte) (s : State) : noFault (resyncByte b s) = true := by
  unfold resyncByte
  dsimp only
  split
  · rfl
  · have hone : 1 ≤ s.rxBudget.toNat := by bv_omega
    exact examine_noFault hone

theorem seekAddrByte_noFault (b : Byte) (s : State) : noFault (seekAddrByte b s) = true := by
  unfold seekAddrByte
  split
  · rfl
  · split
    · rfl
    · exact resyncByte_noFault b s

theorem lenLoByte_noFault (b : Byte) (s : State) : noFault (lenLoByte b s) = true := by
  unfold lenLoByte
  dsimp only
  split <;> rfl

theorem payloadByte_noFault (h : 1 ≤ s.rxRemaining.toNat) : noFault (payloadByte b s) = true := by
  have hpos : s.rxRemaining ≠ 0#16 := by bv_omega
  rw [payloadByte, if_neg hpos]
  rfl

theorem chkLoByte_noFault (b : Byte) (s : State) : noFault (chkLoByte b s) = true := by
  unfold chkLoByte
  dsimp only
  split <;> rfl

/-- The scan invariant gives `SEEK_SYNC` its budget and `PAYLOAD` its remaining byte. -/
theorem execRxByte_noFault (h : ScanInv s) : noFault (execRxByte b s) = true := by
  obtain ⟨hsync, -, -, -, -, hpayload, -, -⟩ := h
  cases hq : s.rxState with
  | seekSync =>
    obtain ⟨hone, -⟩ := hsync hq
    rw [execRxByte_of_seekSync hq]
    exact examine_noFault hone
  | seekAddr => rw [execRxByte_of_seekAddr hq]; exact seekAddrByte_noFault b s
  | lenLo => simp only [execRxByte, hq]; exact lenLoByte_noFault b s
  | payload =>
    obtain ⟨-, -, -, hone⟩ := hpayload hq
    simp only [execRxByte, hq]
    exact payloadByte_noFault hone
  | chkLo => simp only [execRxByte, hq]; exact chkLoByte_noFault b s
  | idle | hdrCmd | lenHi | chkHi | done => simp only [execRxByte, hq]; rfl

theorem answerRequest_noFault {e : StepOutcome} (h : noFault e = true) : noFault (answerRequest s e) = true := by
  unfold answerRequest
  split
  · exact h
  · rfl

theorem exec_noFault (h : FramerInv s) : noFault (exec i s) = true := by
  obtain ⟨⟨hcapacity, -⟩, hscan, -⟩ := h
  cases i with
  | txBegin c => simp only [exec, execTxBegin]; split <;> rfl
  | txPush b =>
    simp only [exec, execTxPush]
    split
    · rfl
    · split <;> rfl
  | txEnd => exact execTxEnd_noFault hcapacity
  | csumClr | csumAdd b => rfl
  | rxStart =>
    simp only [exec, execRxStart]
    split
    · rfl
    · split <;> rfl
  | rxByte b => exact execRxByte_noFault hscan
  | rxUnderrun => exact answerRequest_noFault rfl
  | rxChfault c => exact answerRequest_noFault rfl

theorem refuseReserved_noFault (r : ReservedReason) : noFault (refuseReserved r) = true := by
  cases r <;> rfl

/-! ### Runs over offered operations -/

theorem runSteps_succ_next {k : Nat} (h : runSteps (k + 1) s = .next t) :
    ∃ u, step s = .next u ∧ runSteps k u = .next t := by
  unfold runSteps at h
  split at h
  · exact ⟨_, ‹_›, h⟩
  · cases h
  · cases h

/-- A run whose oldest word is an operation's begins with that operation. -/
theorem runSteps_operation {k : Nat} (hp : s.port = encode i :: rest) (h : runSteps (k + 1) s = .next t) :
    ∃ u, exec i { s with port := rest } = .next u ∧ runSteps k u = .next t := by
  obtain ⟨u, hstep, hrun⟩ := runSteps_succ_next h
  rw [step_operation hp (decode_encode i)] at hstep
  exact ⟨u, hstep, hrun⟩

theorem byteWords_cons (b : Byte) (xs : List Byte) : byteWords (b :: xs) = encode (.rxByte b) :: byteWords xs := rfl

/-- The induction over delivered bytes, once: what every byte keeps, `P taken s` with `taken` the bytes so far, holds
when all of them are taken, and what was offered behind them is still offered. -/
theorem runSteps_byteWords {P : List Byte → State → Prop}
    (hbyte : ∀ taken b s t ws, P taken s → execRxByte b { s with port := ws } = .next t → P (taken ++ [b]) t)
    {taken : List Byte} (xs : List Byte) (hs : P taken s) (hp : s.port = byteWords xs ++ rest)
    (h : runSteps xs.length s = .next t) : P (taken ++ xs) t ∧ t.port = rest := by
  induction xs generalizing taken s with
  | nil =>
    cases h
    exact ⟨by simpa using hs, hp⟩
  | cons b xs ih =>
    obtain ⟨u, he, hrun⟩ := runSteps_operation (i := .rxByte b) hp h
    obtain ⟨⟨-, hport⟩, -⟩ := (execRxByte_readerOnly he).sameParts
    have hall := ih (hbyte taken b s u _ hs he) hport hrun
    rwa [List.append_assoc] at hall

/-! ### What an invocation spends (41_response_reader.md R124, R128; 60_exceptions.md R161) -/

/-- The account of an invocation that took `n` bytes: while the reader seeks, each of them was an examination; at
`NO_FRAME` all of them were, or under `RESYNC` all but the last. -/
def BudgetSpent (n : Nat) (s : State) : Prop :=
  (s.rxState = .seekSync ∨ s.rxState = .seekAddr → s.rxBudget.toNat + n = s.cfg.maxResyncBytes.toNat) ∧
  (s.rxStatus = .noFrame →
    n = s.cfg.maxResyncBytes.toNat ∨ s.cfg.addrPolicy = .resync ∧ n = s.cfg.maxResyncBytes.toNat + 1)

theorem execRxStart_budgetSpent (e : execRxStart s = .next t) : BudgetSpent 0 t := by
  obtain ⟨-, ⟨hzero, rfl⟩ | ⟨-, rfl⟩⟩ := execRxStart_next e
  · simp [BudgetSpent, hzero]
  · simp [BudgetSpent]

theorem examine_budgetSpent (hbusy : s.rxStatus = .busy) (hn : s.rxBudget.toNat + n = s.cfg.maxResyncBytes.toNat)
    (e : examine b s = .next t) : BudgetSpent (n + 1) t := by
  obtain ⟨hpos, hcase⟩ := examine_next e
  have hspent : (s.rxBudget - 1#32).toNat + (n + 1) = s.cfg.maxResyncBytes.toNat := by bv_omega
  rcases hcase with ⟨-, rfl⟩ | ⟨-, hzero, rfl⟩ | ⟨-, -, rfl⟩
  · exact ⟨fun _ => hspent, by simp [hbusy]⟩
  · exact ⟨fun _ => hspent, fun _ => .inl (by simpa [hzero] using hspent)⟩
  · exact ⟨fun _ => hspent, by simp [hbusy]⟩

/-- A mismatching address byte is examined too, unless the sync byte before it was the budget's last: then it is the
one byte over the budget (41_response_reader.md R128). -/
theorem seekAddrByte_budgetSpent (hbusy : s.rxStatus = .busy)
    (hn : s.rxBudget.toNat + n = s.cfg.maxResyncBytes.toNat) (e : seekAddrByte b s = .next t) :
    BudgetSpent (n + 1) t := by
  rcases seekAddrByte_next e with ⟨-, rfl⟩ | ⟨-, -, rfl⟩ | ⟨-, hpolicy, he⟩
  · simp [BudgetSpent, hbusy]
  · simp [BudgetSpent, Failure.status]
  · rcases resyncByte_next he with ⟨hzero, rfl⟩ | ⟨-, hexamine⟩
    · have hall : n = s.cfg.maxResyncBytes.toNat := by simpa [hzero] using hn
      exact ⟨by simp, fun _ => .inr ⟨hpolicy, by simp [hall]⟩⟩
    · exact examine_budgetSpent (s := { s with rxRaw := [], rxSum := 0x0000#16 }) hbusy hn hexamine

/-- Behind the frame's address the reader neither seeks again nor ends with `NO_FRAME`. -/
theorem execRxByte_keeps_budgetSpent (hreader : ReaderInv s) (h : BudgetSpent n s) (e : execRxByte b s = .next t) :
    BudgetSpent (n + 1) t := by
  obtain ⟨hseeks, -⟩ := h
  have hbusy {q : RxState} (hq : s.rxState = q) (hr : q.isReading = true) : s.rxStatus = .busy :=
    (hreader.reading hq hr).busy
  rcases execRxByte_next e with ⟨hq, he⟩ | ⟨hq, he⟩ | ⟨hq, he⟩ | ⟨hq, he⟩ | ⟨hq, he⟩ | ⟨hq, he⟩ | ⟨hq, he⟩ | ⟨hq, he⟩
  · exact examine_budgetSpent (hbusy hq rfl) (hseeks (.inl hq)) he
  · exact seekAddrByte_budgetSpent (hbusy hq rfl) (hseeks (.inr hq)) he
  · obtain rfl := hdrCmdByte_next he; simp [BudgetSpent, hbusy hq rfl]
  · obtain rfl := lenHiByte_next he; simp [BudgetSpent, hbusy hq rfl]
  · obtain ⟨-, rfl⟩ | ⟨-, rfl⟩ := lenLoByte_next he
    · simp [BudgetSpent, Failure.status]
    · simp [BudgetSpent, hbusy hq rfl, ite_eq_iff]
  · obtain ⟨-, rfl⟩ := payloadByte_next he; simp [BudgetSpent, hbusy hq rfl, ite_eq_iff]
  · obtain rfl := chkHiByte_next he; simp [BudgetSpent, hbusy hq rfl]
  · obtain ⟨-, rfl⟩ | ⟨-, rfl⟩ := chkLoByte_next he
    · simp [BudgetSpent]
    · simp [BudgetSpent, Failure.status]

/-- What the bytes of an invocation with the parameters `cfg` keep, `taken` being those it took so far. -/
def InvocationAccount (cfg : Config) (taken : List Byte) (s : State) : Prop :=
  s.cfg = cfg ∧ ReaderInv s ∧ BudgetSpent taken.length s

theorem execRxStart_invocationAccount (e : execRxStart s = .next t) : InvocationAccount s.cfg [] t := by
  obtain ⟨⟨hcfg, -⟩, -⟩ := (execRxStart_readerOnly e).sameParts
  exact ⟨hcfg, execRxStart_readerInv e, execRxStart_budgetSpent e⟩

theorem execRxByte_keeps_invocationAccount {cfg : Config} {taken : List Byte} (h : InvocationAccount cfg taken s)
    (e : execRxByte b s = .next t) : InvocationAccount cfg (taken ++ [b]) t := by
  obtain ⟨hcfg, hreader, hspent⟩ := h
  obtain ⟨⟨hsame, -⟩, -⟩ := (execRxByte_readerOnly e).sameParts
  refine ⟨hsame.trans hcfg, execRxByte_keeps_readerInv hreader e, ?_⟩
  rw [List.length_append, List.length_singleton]
  exact execRxByte_keeps_budgetSpent hreader hspent e

/-- A whole invocation: `RX_START` and the bytes behind it. -/
theorem invocationAccount_of_run {xs : List Byte} (hp : s.port = encode .rxStart :: (byteWords xs ++ rest))
    (h : runSteps (1 + xs.length) s = .next t) : InvocationAccount s.cfg xs t ∧ t.port = rest := by
  rw [Nat.add_comm] at h
  obtain ⟨u, hstart, hrun⟩ := runSteps_operation (i := .rxStart) hp h
  obtain ⟨⟨-, hport⟩, -⟩ := (execRxStart_readerOnly hstart).sameParts
  exact runSteps_byteWords (P := InvocationAccount s.cfg)
    (fun _ _ s _ ws hs e => execRxByte_keeps_invocationAccount (s := { s with port := ws }) hs e)
    xs (execRxStart_invocationAccount (s := { s with port := byteWords xs ++ rest }) hstart) hport hrun

end

/-! ### The obligations -/

/-- Settles O41: the invariant is kept operation by operation (`exec_keeps_framerInv`). -/
theorem stepKeepsInvariant : Obligations.StepKeepsInvariant :=
  fun _ _ h e => step_keeps_framerInv h e

/-- Settles O3: the two tables agree row by row, and the decoder answers an operation only on its own word. -/
theorem wellFormedOffersDecode : Obligations.WellFormedOffersDecode := by
  intro a w
  constructor
  · intro h
    simp only [offerWellFormed, List.any_eq_true, Bool.and_eq_true, decide_eq_true_eq] at h
    obtain ⟨r, hr, hcovers, rfl⟩ := h
    exact decode_of_row hr hcovers
  · rintro ⟨i, hi, rfl⟩
    rw [eq_encode_of_decode hi]
    exact offerWellFormed_encode i

/-- Settles O36: the account of the invocation, read at its end. -/
theorem noFrameSpendsTheBudget : Obligations.NoFrameSpendsTheBudget := by
  intro s t xs rest _ hp hrun hstatus
  obtain ⟨⟨hcfg, ⟨-, houtcome, -⟩, -, hcount⟩, -⟩ := invocationAccount_of_run hp hrun
  obtain ⟨-, -, -, -, hbudget, -⟩ := houtcome
  rw [hcfg] at hcount
  refine ⟨hbudget hstatus, fun hfast => ?_, fun _ => ?_⟩
  · rcases hcount hstatus with hall | ⟨hresync, -⟩
    · exact hall
    · rw [hfast] at hresync; cases hresync
  · exact (hcount hstatus).imp_right And.right

/-- Settles O37: by the operation's part. -/
theorem operationsTouchOnlyTheirPart : Obligations.OperationsTouchOnlyTheirPart := by
  intro i s t e
  cases hp : partOf i with
  | builder =>
    obtain ⟨henv, hcsum, hreader⟩ := exec_of_builder hp e
    exact ⟨henv, fun hne => absurd rfl hne, fun _ => hcsum, fun _ => hreader⟩
  | checksum =>
    obtain ⟨henv, hbuilder, hreader⟩ := exec_of_checksum hp e
    exact ⟨henv, fun _ => hbuilder, fun hne => absurd rfl hne, fun _ => hreader⟩
  | reader =>
    obtain ⟨henv, hbuilder, hcsum⟩ := (exec_of_reader hp e).sameParts
    exact ⟨henv, fun _ => hbuilder, fun _ => hcsum, fun hne => absurd rfl hne⟩

/-- Settles O38: the operations of the builder and the checksum unit write their listed fields and no other; of the
reader's, `RX_START` writes them all, a failure the outcome registers, and `RX_BYTE` what `ByteWrites` lists. -/
theorem fieldsWrittenOnlyByTheirRules : Obligations.FieldsWrittenOnlyByTheirRules := by
  intro i s t e
  cases i with
  | txBegin c => obtain ⟨-, rfl⟩ := execTxBegin_next e; simp
  | txPush b => obtain ⟨-, -, rfl⟩ := execTxPush_next e; simp
  | txEnd => obtain ⟨-, -, rfl⟩ := execTxEnd_next e; simp
  | csumClr => obtain rfl := execCsumClr_next e; simp
  | csumAdd b => obtain rfl := execCsumAdd_next e; simp
  | rxStart =>
    obtain ⟨-, ⟨-, rfl⟩ | ⟨-, rfl⟩⟩ := execRxStart_next e
    · simp [partOf]
    · simp [partOf]
  | rxByte b =>
    obtain ⟨⟨-, -⟩, ⟨hstate, hcmd, hpayload, hframe, hvalid⟩, hcsum⟩ := (execRxByte_readerOnly e).sameParts
    simpa [hstate, hcmd, hpayload, hframe, hvalid, hcsum, partOf, ByteWrites] using execRxByte_byteWrites e
  | rxUnderrun =>
    obtain ⟨-, rfl⟩ := execRxUnderrun_next e
    simp [partOf, Failure.status, Failure.faultCode, RxStatus.isFailure]
  | rxChfault c =>
    obtain ⟨-, rfl⟩ := execRxChfault_next e
    simp [partOf, Failure.status, RxStatus.isFailure]

/-- Settles O39: only the reader's operations write the budget, and a byte spends at most one unit of it. -/
theorem budgetNeverWraps : Obligations.BudgetNeverWraps := by
  intro i s t e
  by_cases hp : partOf i = .reader
  · cases i with
    | rxStart =>
      obtain ⟨-, ⟨-, rfl⟩ | ⟨-, rfl⟩⟩ := execRxStart_next e
      · exact .inl ⟨rfl, rfl⟩
      · exact .inl ⟨rfl, rfl⟩
    | rxByte b => exact .inr (execRxByte_budget e)
    | rxUnderrun => obtain ⟨-, rfl⟩ := execRxUnderrun_next e; exact .inr (.inl rfl)
    | rxChfault c => obtain ⟨-, rfl⟩ := execRxChfault_next e; exact .inr (.inl rfl)
    | txBegin _ | txPush _ | txEnd | csumClr | csumAdd _ => cases hp
  · obtain ⟨-, -, hbudget, -⟩ := exec_sameReader hp e
    exact .inr (.inl hbudget)

/-- Settles O43: read off the full invariant. -/
theorem readerInvariantsAlwaysHold : Obligations.ReaderInvariantsAlwaysHold :=
  fun _ _ h => ⟨h.cfg_eq, h.framerInv.readerInvariants⟩

/-- Settles O44: waiting and refusing are no faults, and under the invariant no operation faults. -/
theorem noFaultUnderInvariant : Obligations.NoFaultUnderInvariant := by
  intro s h
  cases hp : s.port with
  | nil => rw [step, readPort_nil hp]; rfl
  | cons w rest =>
    cases hd : decode w with
    | instr i =>
      rw [step_operation hp hd]
      exact exec_noFault (s := { s with port := rest }) h
    | reserved r =>
      rw [step, readPort_reserved hp hd]
      exact refuseReserved_noFault r

/-- Settles O57: a failure stands in `RX_DONE` with no valid frame, and without one the frame's outputs have no value. -/
theorem failureHidesTheFrame : Obligations.FailureHidesTheFrame := by
  intro cfg s o hreach hfail ho
  obtain ⟨-, -, houtcome, -⟩ := hreach.framerInv
  obtain ⟨hnone, hbusy, hok⟩ := isFailure_ne hfail
  have hdone := houtcome.rxState_eq_done hnone hbusy
  obtain ⟨-, -, hvalid, -⟩ := houtcome
  have hhidden : s.rxFrameValid = false := Bool.eq_false_iff.mpr fun hv => hok (hvalid.mp hv)
  exact ⟨hdone, hhidden, observe_frame_hidden hhidden ho⟩

/-- Settles O5: the tables by evaluation, the reading states by `isReading_iff_code`. -/
theorem registerCodes : Obligations.RegisterCodes :=
  ⟨rfl, rfl, rfl, isReading_iff_code⟩

/-- Settles O7: the port answers the operation and `step` runs it. -/
theorem stepRunsDecodedOperation : Obligations.StepRunsDecodedOperation :=
  fun _ _ _ _ hp hd => step_operation hp hd

/-- Settles O42: the invariant does not read the port, the one field that tells the two resets apart. -/
theorem resetMeetsInvariant : Obligations.ResetMeetsInvariant :=
  ⟨framerInv_resetWith, fun s => framerInv_resetWith s.cfg⟩

/-- Settles O55: condition by condition. -/
theorem outputsOnlyUnderTheirConditions : Obligations.OutputsOnlyUnderTheirConditions := by
  intro s
  refine ⟨rfl, rfl, rfl, rfl, ?fault, ?noFault, ?built, ?notBuilt, ?accepted, ?notAccepted⟩
  case fault => intro h; simp [observe, h, offeredWhen_true]
  case noFault =>
    intro h
    have hnone : observe .rxFaultCode s = none := by simp [observe, h, offeredWhen_false]
    exact ⟨hnone, readOutput_of_none hnone⟩
  case built => intro h; simp [observe, h, offeredWhen_true]
  case notBuilt =>
    intro h
    have hnone : observe .txFrame s = none := by simp [observe, h, offeredWhen_false]
    exact ⟨hnone, readOutput_of_none hnone⟩
  case accepted => intro h; simp [observe, observeFrame, h, offeredWhen_true]
  case notAccepted =>
    intro h
    refine ⟨fun o ho => ?_, by simp [observeFrame, h]⟩
    have hnone := observe_frame_hidden h ho
    exact ⟨hnone, readOutput_of_none hnone⟩

/-- Settles O56: no output names a field of the first list, and those that name one of the second have no value. -/
theorem hiddenStateReachesNoOutput : Obligations.HiddenStateReachesNoOutput := by
  intro s o budget sum rem len chk chkHi txc cmd txp raw pay
  constructor
  · cases o <;> rfl
  · intro hv
    cases o with
    | rxRaw | rxCmd | rxPayload | rxLen | rxChk => simp [observe, hv, offeredWhen_false]
    | rxState | rxStatus | rxFrameValid | rxFaultCode | txState | txFrame | csumAcc => rfl

/-- Settles O59: for either way of resetting. -/
theorem resetValues : Obligations.ResetValues := by
  rintro s t (rfl | rfl) <;> simp [applyReset, State.resetWith]

end Sys2Proof.Machine

/-! # The memory family (20_memory.md)

The three parts share no field (40_frame_codec.md R109): an operation reads the parameters and its own part, writes its
own part, and so commutes with an operation of another part. The port is nobody's part, so a run over offered answers
and the pull interface take the same steps. -/

namespace Sys2Proof.Machine

open Sys2Proof.Claims

section

variable {a s t : State} {b c : Byte} {p q : Part} {i : Instr}

/-! ### The fields of one part -/

/-- `s` with the fields of the part `p` as `a` has them; the parameters, the port and the other parts are those of `s`
(10_state.md R25 to R40). -/
def withPart (p : Part) (a s : State) : State :=
  match p with
  | .builder =>
    { s with
      txState := a.txState
      txCmd := a.txCmd
      txPayload := a.txPayload
      txFrame := a.txFrame
      txValid := a.txValid }
  | .checksum => { s with csumAcc := a.csumAcc }
  | .reader => { a with
      cfg := s.cfg
      port := s.port
      txState := s.txState
      txCmd := s.txCmd
      txPayload := s.txPayload
      txFrame := s.txFrame
      txValid := s.txValid
      csumAcc := s.csumAcc }

theorem withPart_self (p : Part) (s : State) : withPart p s s = s := by
  cases p <;> rfl

theorem withPart_cfg (p : Part) (a s : State) : (withPart p a s).cfg = s.cfg := by
  cases p <;> rfl

theorem withPart_rxState (a s : State) : (withPart .reader a s).rxState = a.rxState := rfl

/-- The port is in no part. -/
theorem withPart_withPort (h : withPart p t s = t) (ws : List OpWord) :
    withPart p t { s with port := ws } = { t with port := ws } := by
  conv_rhs => rw [← h]
  cases p <;> rfl

/-- Taking the part `q` does not see that the part `p` of the giver was replaced. -/
theorem withPart_withPart_of_ne (h : p ≠ q) (a b s : State) : withPart q (withPart p a b) s = withPart q b s := by
  cases p <;> cases q <;> trivial

theorem withPart_comm (h : p ≠ q) (a b s : State) :
    withPart p a (withPart q b s) = withPart q b (withPart p a s) := by
  cases p <;> cases q <;> trivial

/-! ### An operation reads the parameters and its own part -/

/-- An outcome with its next state, where there is one, changed by `f`. -/
def mapNext (f : State → State) : StepOutcome → StepOutcome
  | .next t => .next (f t)
  | .fault r => .fault r
  | .refused r => .refused r

/-- The outcome of `op` is decided by the parameters and the part `p`, and `op` leaves every field outside `p`: put
into any other surroundings, it does the same to the part and leaves those surroundings as they are. -/
def LocalTo (p : Part) (op : State → StepOutcome) : Prop :=
  ∀ a s : State, s.cfg = a.cfg → op (withPart p a s) = mapNext (fun t => withPart p t s) (op a)

theorem LocalTo.refused (r : Refusal) : LocalTo p fun _ => .refused r := fun _ _ _ => rfl

theorem LocalTo.fault (r : Fault) : LocalTo p fun _ => .fault r := fun _ _ _ => rfl

/-- An operation that always completes is local when its effect on the state is. -/
theorem LocalTo.next {f : State → State} (hf : ∀ a s, s.cfg = a.cfg → f (withPart p a s) = withPart p (f a) s) :
    LocalTo p fun s => .next (f s) :=
  fun a s hcfg => congrArg Host.Outcome.next (hf a s hcfg)

/-- A choice is local when its test reads the parameters and the part only. -/
theorem LocalTo.ite {C : State → Prop} [DecidablePred C] {f g : State → StepOutcome}
    (hC : ∀ a s, s.cfg = a.cfg → (C (withPart p a s) ↔ C a)) (hf : LocalTo p f) (hg : LocalTo p g) :
    LocalTo p fun s => if C s then f s else g s := by
  intro a s hcfg
  by_cases h : C a
  · simpa [hC a s hcfg, h] using hf a s hcfg
  · simpa [hC a s hcfg, h] using hg a s hcfg

/-! The builder's operations. -/

theorem execTxBegin_localTo (c : Byte) : LocalTo .builder (execTxBegin c) := by
  intro a s _
  cases hq : a.txState <;> simp [execTxBegin, withPart, mapNext, hq]

theorem execTxPush_localTo (b : Byte) : LocalTo .builder (execTxPush b) := by
  intro a s _
  cases hq : a.txState with
  | idle => simp [execTxPush, withPart, mapNext, hq]
  | build =>
    by_cases hroom : a.txPayload.length < maxPayload <;> simp [execTxPush, withPart, mapNext, hq, hroom]

theorem execTxEnd_localTo : LocalTo .builder execTxEnd := by
  intro a s hcfg
  cases hq : a.txState with
  | idle => simp [execTxEnd, withPart, mapNext, hq]
  | build =>
    by_cases hfits : a.txPayload.length ≤ maxPayload <;> simp [execTxEnd, withPart, mapNext, hq, hfits, hcfg]

/-! The reader's operations, rule by rule. -/

theorem execRxStart_localTo : LocalTo .reader execRxStart :=
  .ite (fun _ _ _ => Iff.rfl) (.refused _) <|
    .ite (fun _ _ h => by rw [withPart_cfg, h])
      (.next fun _ _ h => by simp only [clearReader, raiseFailure, withPart, h])
      (.next fun _ _ h => by simp only [clearReader, withPart, h])

theorem examine_localTo (b : Byte) : LocalTo .reader (examine b) :=
  .ite (fun _ _ _ => Iff.rfl) (.fault _) <|
    .ite (fun _ _ h => by rw [withPart_cfg, h]) (.next fun _ _ _ => rfl) <|
      .ite (fun _ _ _ => Iff.rfl) (.next fun _ _ _ => rfl) (.next fun _ _ _ => rfl)

theorem resyncByte_localTo (b : Byte) : LocalTo .reader (resyncByte b) :=
  .ite (fun _ _ _ => Iff.rfl) (.next fun _ _ _ => rfl)
    fun a s hcfg => examine_localTo b { a with rxRaw := [], rxSum := 0x0000#16 } s hcfg

theorem seekAddrByte_localTo (b : Byte) : LocalTo .reader (seekAddrByte b) := by
  refine .ite (fun _ _ h => by rw [withPart_cfg, h]) (.next fun _ _ _ => rfl) fun a s hcfg => ?_
  rw [withPart_cfg, hcfg]
  cases a.cfg.addrPolicy with
  | failFast => rfl
  | resync => exact resyncByte_localTo b a s hcfg

theorem lenLoByte_localTo (b : Byte) : LocalTo .reader (lenLoByte b) :=
  .ite (fun _ _ _ => Iff.rfl) (.next fun _ _ _ => rfl) (.next fun _ _ _ => rfl)

theorem payloadByte_localTo (b : Byte) : LocalTo .reader (payloadByte b) :=
  .ite (fun _ _ _ => Iff.rfl) (.fault _) (.next fun _ _ _ => rfl)

theorem chkLoByte_localTo (b : Byte) : LocalTo .reader (chkLoByte b) :=
  .ite (fun _ _ _ => Iff.rfl) (.next fun _ _ _ => rfl) (.next fun _ _ _ => rfl)

theorem execRxByte_localTo (b : Byte) : LocalTo .reader (execRxByte b) := by
  intro a s hcfg
  rw [execRxByte, execRxByte, withPart_rxState]
  cases a.rxState with
  | idle | hdrCmd | lenHi | chkHi | done => rfl
  | seekSync => exact examine_localTo b a s hcfg
  | seekAddr => exact seekAddrByte_localTo b a s hcfg
  | lenLo => exact lenLoByte_localTo b a s hcfg
  | payload => exact payloadByte_localTo b a s hcfg
  | chkLo => exact chkLoByte_localTo b a s hcfg

/-- The answers without a byte (41_response_reader.md R135, R136). -/
theorem answerRequest_localTo (k : Failure) : LocalTo .reader fun s => answerRequest s (.next (raiseFailure k s)) :=
  .ite (fun _ _ _ => Iff.rfl) (.next fun _ _ _ => rfl) (.refused _)

theorem exec_localTo (i : Instr) : LocalTo (partOf i) (exec i) := by
  cases i with
  | txBegin c => exact execTxBegin_localTo c
  | txPush b => exact execTxPush_localTo b
  | txEnd => exact execTxEnd_localTo
  | csumClr | csumAdd b => exact fun _ _ _ => rfl
  | rxStart => exact execRxStart_localTo
  | rxByte b => exact execRxByte_localTo b
  | rxUnderrun => exact answerRequest_localTo .underrun
  | rxChfault c => exact answerRequest_localTo (.channelFault c)

/-- What `i` does in the state `a` it does with the part of `a` in any surroundings with the same parameters. -/
theorem exec_withPart (hcfg : s.cfg = a.cfg) (e : exec i a = .next t) :
    exec i (withPart (partOf i) a s) = .next (withPart (partOf i) t s) := by
  rw [exec_localTo i a s hcfg, e]; rfl

/-- An operation writes its own part only: `exec_withPart` with the state itself as the surroundings. -/
theorem withPart_of_exec (e : exec i s = .next t) : withPart (partOf i) t s = t := by
  have h := exec_withPart rfl e
  rw [withPart_self, e] at h
  injection h with ht
  exact ht.symm

/-- No operation reads or writes the port (10_state.md R23). -/
theorem exec_withPort (ws : List OpWord) (e : exec i s = .next t) :
    exec i { s with port := ws } = .next { t with port := ws } :=
  calc exec i { s with port := ws }
      = exec i (withPart (partOf i) s { s with port := ws }) := by rw [withPart_withPort (withPart_self _ s)]
    _ = .next (withPart (partOf i) t { s with port := ws }) := exec_withPart rfl e
    _ = .next { t with port := ws } := by rw [withPart_withPort (withPart_of_exec e)]

/-! ### The pull interface (20_memory.md R51, R57) -/

theorem exists_next_of_noFault {o : StepOutcome} (hf : noFault o = true) (hr : ∀ r, o ≠ .refused r) :
    ∃ t, o = .next t := by
  cases o with
  | next t => exact ⟨t, rfl⟩
  | fault r => cases hf
  | refused r => exact absurd rfl (hr r)

theorem examine_ne_refused (b : Byte) (s : State) (r : Refusal) : examine b s ≠ .refused r := by
  simp [examine, ite_eq_iff]

theorem seekAddrByte_ne_refused (b : Byte) (s : State) (r : Refusal) : seekAddrByte b s ≠ .refused r := by
  cases hpolicy : s.cfg.addrPolicy with
  | failFast => simp [seekAddrByte, hpolicy, ite_eq_iff]
  | resync => simp [seekAddrByte, hpolicy, resyncByte, ite_eq_iff, examine_ne_refused]

/-- The rules of the reading states refuse nothing (41_response_reader.md R121, R123). -/
theorem execRxByte_ne_refused (hr : s.rxState.isReading = true) (r : Refusal) : execRxByte b s ≠ .refused r := by
  cases hq : s.rxState with
  | idle | done => rw [hq] at hr; cases hr
  | seekSync => rw [execRxByte_of_seekSync hq]; exact examine_ne_refused b s r
  | seekAddr => rw [execRxByte_of_seekAddr hq]; exact seekAddrByte_ne_refused b s r
  | hdrCmd => simp [execRxByte, hq, hdrCmdByte]
  | lenHi => simp [execRxByte, hq, lenHiByte]
  | lenLo => simp [execRxByte, hq, lenLoByte, ite_eq_iff]
  | payload => simp [execRxByte, hq, payloadByte, ite_eq_iff]
  | chkHi => simp [execRxByte, hq, chkHiByte]
  | chkLo => simp [execRxByte, hq, chkLoByte, ite_eq_iff]

theorem answerRequest_of_reading (hr : s.rxState.isReading = true) (o : StepOutcome) : answerRequest s o = o :=
  if_pos hr

/-- Where a request is outstanding, every answer of the byte source is taken (20_memory.md R51). -/
theorem exec_sourceOp_of_reading (e : SourceEvent) (h : FramerInv s) (hr : s.rxState.isReading = true) :
    ∃ t, exec (sourceOp e) s = .next t := by
  cases e with
  | byte b => exact exists_next_of_noFault (exec_noFault (i := .rxByte b) h) (execRxByte_ne_refused hr)
  | underrun => exact ⟨_, answerRequest_of_reading hr _⟩
  | chfault c => exact ⟨_, answerRequest_of_reading hr _⟩

/-- An operation that completes does so as the oldest word of the port too, in one step. -/
theorem runSteps_succ_of_exec {k : Nat} (ws : List OpWord) (e : exec i s = .next t) :
    runSteps (k + 1) { s with port := encode i :: ws } = runSteps k { t with port := ws } := by
  rw [runSteps, step_operation rfl (decode_encode i), exec_withPort ws e]

theorem serve_of_next {e : SourceEvent} {es : List SourceEvent} (hr : s.rxState.isReading = true)
    (he : exec (sourceOp e) s = .next t) : serve (e :: es) s = serve es t := by
  simp [serve, hr, he]

theorem serve_of_not_reading {es : List SourceEvent} (hr : s.rxState.isReading = false) : serve es s = ⟨s, es⟩ := by
  cases es <;> simp [serve, hr]

/-- By induction on the answers, with the port of `s` left open: `serve` never reads it, while the machine's run has the
answers offered there. Each answer to a request is one step of both; where no request is outstanding both stop. -/
theorem serve_agrees_with_runSteps (es : List SourceEvent) (rest : List OpWord) (h : FramerInv s) :
    ∃ used, es = used ++ (serve es s).left ∧
      runSteps used.length { s with port := eventWords es ++ rest } =
        .next { (serve es s).state with port := eventWords (serve es s).left ++ rest } ∧
      ((serve es s).left ≠ [] → (serve es s).state.rxState.isReading = false) := by
  induction es generalizing s with
  | nil => exact ⟨[], rfl, rfl, fun hleft => absurd rfl hleft⟩
  | cons e es ih =>
    cases hr : s.rxState.isReading with
    | false =>
      rw [serve_of_not_reading hr]
      exact ⟨[], rfl, rfl, fun _ => hr⟩
    | true =>
      obtain ⟨t, he⟩ := exec_sourceOp_of_reading e h hr
      obtain ⟨used, hes, hrun, hleft⟩ := ih (exec_keeps_framerInv h he)
      have hstep : runSteps (used.length + 1) { s with port := eventWords (e :: es) ++ rest } =
          runSteps used.length { t with port := eventWords es ++ rest } :=
        runSteps_succ_of_exec (eventWords es ++ rest) he
      rw [serve_of_next hr he]
      exact ⟨e :: used, congrArg (e :: ·) hes, hstep.trans hrun, hleft⟩

end

/-- Settles O40: `v` is `s` with what `j` made of its part. `j` sees the same part in `s` as behind `i`, and `i` the
same part in `v` as in `s`, so each does what it did in the first order (`exec_withPart`). -/
theorem operationsOfDifferentPartsCommute : Obligations.OperationsOfDifferentPartsCommute := by
  intro i j s t u hne ei ej
  have ht : withPart (partOf i) t s = t := withPart_of_exec ei
  have hu : withPart (partOf j) u t = u := withPart_of_exec ej
  have hcfg : s.cfg = t.cfg := by rw [← ht, withPart_cfg]
  have hfirst : withPart (partOf j) t s = s := by rw [← ht, withPart_withPart_of_ne hne, withPart_self]
  have hmiddle : withPart (partOf i) s (withPart (partOf j) u s) = withPart (partOf j) u s := by
    rw [withPart_comm hne, withPart_self]
  have hlast : withPart (partOf i) t (withPart (partOf j) u s) = u := by rw [withPart_comm hne, ht, hu]
  have hj := exec_withPart hcfg ej
  have hi := exec_withPart (s := withPart (partOf j) u s) (withPart_cfg ..) ei
  rw [hfirst] at hj
  rw [hmiddle, hlast] at hi
  exact ⟨withPart (partOf j) u s, hj, hi⟩

/-- Settles O54: `serve_agrees_with_runSteps`, with the answers on the port as the premise has them. -/
theorem pullInterfaceAgreesWithSteps : Obligations.PullInterfaceAgreesWithSteps := by
  intro s es rest h hp
  have hs : { s with port := eventWords es ++ rest } = s := by rw [← hp]
  simpa only [hs] using serve_agrees_with_runSteps es rest h

end Sys2Proof.Machine

/-! # The encoding family (30_encoding.md)

What the decoder refuses, the assembly line of an operation, and the operations of a listing run one after another:
`tx.frame`, and the built frame fed to the reader. -/

namespace Sys2Proof.Machine

open Sys2Proof.Claims

section

variable {s t u : State} {i : Instr} {b c op imm : Byte} {p : List Byte} {w : OpWord} {rest : List OpWord}

/-! ### The reserved words (30_encoding.md R82) -/

theorem opField_toNat (w : OpWord) : (opField w).toNat = w.toNat / 256 := hiByte_toNat w

theorem immField_toNat (w : OpWord) : (immField w).toNat = w.toNat % 256 := loByte_toNat w

theorem decodeOperandless_eq_reserved {r : ReservedReason} :
    decodeOperandless i imm = .reserved r ↔ imm ≠ 0x00#8 ∧ r = .operand := by
  unfold decodeOperandless
  split
  case isTrue h => simp [h]
  case isFalse h => simp [h, eq_comm]

/-- The codes that are not in the opcode map (30_encoding.md R82(a)). -/
theorem decodeFields_eq_reserved_opcode : decodeFields op imm = .reserved .opcode ↔
    op.toNat = 0x00 ∨ (0x04 ≤ op.toNat ∧ op.toNat ≤ 0x07) ∨ (0x0A ≤ op.toNat ∧ op.toNat ≤ 0x0F) ∨
      0x14 ≤ op.toNat := by
  unfold decodeFields
  split
  case h_10 =>
    simp only [imp_false] at *
    simp only [true_iff]
    omega
  all_goals simp [decodeOperandless_eq_reserved, *]

/-- The operations without an operand (30_encoding.md R82(b)). -/
theorem decodeFields_eq_reserved_operand : decodeFields op imm = .reserved .operand ↔
    (op.toNat = 0x03 ∨ op.toNat = 0x08 ∨ op.toNat = 0x10 ∨ op.toNat = 0x12) ∧ imm.toNat ≠ 0 := by
  have himm : imm.toNat ≠ 0 ↔ imm ≠ 0x00#8 := by simp [BitVec.toNat_eq]
  unfold decodeFields
  split
  case h_10 =>
    simp only [imp_false] at *
    simp only [Decoded.reserved.injEq, reduceCtorEq, false_iff]
    omega
  all_goals simp [decodeOperandless_eq_reserved, *]

theorem step_reserved {r : ReservedReason} (hp : s.port = w :: rest) (hd : decode w = .reserved r) :
    step s = refuseReserved r := by
  rw [step, readPort_reserved hp hd]

/-! ### The assembly line of an operation (30_encoding.md R84) -/

theorem hexDigit_hexChar : ∀ n < 16, hexDigit (hexChar n) = some n := by
  intro n hn
  interval_cases n <;> rfl

theorem byteOperand_hex {h l : Char} {hi lo : Nat} (hhi : hexDigit h = some hi) (hlo : hexDigit l = some lo) :
    byteOperand ['0', 'x', h, l] = some (BitVec.ofNat 8 (hi * 16 + lo)) := by
  change (match hexDigit h, hexDigit l with
    | some hi, some lo => some (BitVec.ofNat 8 (hi * 16 + lo))
    | _, _ => none) = _
  rw [hhi, hlo]

theorem byteOperand_byteText (b : Byte) : byteOperand (byteText b) = some b := by
  have hb := b.isLt
  have hhi := hexDigit_hexChar (b.toNat / 16) (by omega)
  have hlo := hexDigit_hexChar (b.toNat % 16) (by omega)
  rw [byteText, byteOperand_hex hhi hlo, Nat.div_add_mod', BitVec.ofNat_toNat, BitVec.setWidth_eq]

/-- Text with neither a blank nor the start of a comment. -/
def Plain (cs : List Char) : Prop := ∀ c ∈ cs, isBlank c = false ∧ c ≠ ';'

theorem plain_byteText (b : Byte) : Plain (byteText b) := by
  have hb := b.isLt
  have hhex : ∀ n < 16, isBlank (hexChar n) = false ∧ hexChar n ≠ ';' := by decide
  have hhi := hhex (b.toNat / 16) (by omega)
  have hlo := hhex (b.toNat % 16) (by omega)
  have hzerox : isBlank '0' = false ∧ isBlank 'x' = false := by decide
  simp [Plain, byteText, hhi, hlo, hzerox]

theorem plain_asmMnemonic (i : Instr) : Plain (asmMnemonic i).toList ∧ (asmMnemonic i).toList ≠ [] := by
  cases i <;> simp [Plain, asmMnemonic, isBlank]

theorem dropComment_of_no_comment {cs : List Char} (h : ∀ c ∈ cs, c ≠ ';') : dropComment cs = cs := by
  rw [dropComment, List.takeWhile_eq_self_iff]
  simpa using h

theorem dropWhile_isBlank_eq_self {cs : List Char} (h : ∀ c ∈ cs.head?, isBlank c = false) :
    cs.dropWhile isBlank = cs := by
  cases cs with
  | nil => rfl
  | cons c cs => simpa using h

/-- Text with no blank at either end is left as it is. -/
theorem trimBlanks_eq_self {cs : List Char} (hfirst : ∀ c ∈ cs.head?, isBlank c = false)
    (hlast : ∀ c ∈ cs.getLast?, isBlank c = false) : trimBlanks cs = cs := by
  rw [trimBlanks, dropWhile_isBlank_eq_self hfirst, dropWhile_isBlank_eq_self (by simpa using hlast),
    List.reverse_reverse]

theorem Plain.trimBlanks {cs : List Char} (h : Plain cs) : trimBlanks cs = cs :=
  trimBlanks_eq_self (fun c hc => (h c (List.mem_of_mem_head? hc)).left)
    (fun c hc => (h c (List.mem_of_mem_getLast? hc)).left)

/-- A line that is one word is that mnemonic without an operand text. -/
theorem assembleLine_word {m : List Char} (hm : Plain m) (hne : m ≠ []) :
    assembleLine m = assembleMnemonic (String.ofList m) [] := by
  have htext : trimBlanks (dropComment m) = m := by
    rw [dropComment_of_no_comment fun c hc => (hm c hc).right, hm.trimBlanks]
  have hword : ∀ c ∈ m, (!isBlank c) = true := fun c hc => by simp [(hm c hc).left]
  have htake : m.takeWhile (fun c => !isBlank c) = m := List.takeWhile_eq_self_iff.mpr hword
  have hdrop : m.dropWhile (fun c => !isBlank c) = [] := List.dropWhile_eq_nil_iff.mpr hword
  simp only [assembleLine, htext, if_neg hne, htake, hdrop]
  rfl

/-- A line of two words is the first as the mnemonic with the second as its operand text. -/
theorem assembleLine_words {m arg : List Char} (hm : Plain m) (hne : m ≠ []) (ha : Plain arg) (hane : arg ≠ []) :
    assembleLine (m ++ ' ' :: arg) = assembleMnemonic (String.ofList m) arg := by
  have hcomment : dropComment (m ++ ' ' :: arg) = m ++ ' ' :: arg := by
    apply dropComment_of_no_comment
    simp only [List.mem_append, List.mem_cons]
    rintro c (hc | rfl | hc)
    · exact (hm c hc).right
    · decide
    · exact (ha c hc).right
  have htext : trimBlanks (m ++ ' ' :: arg) = m ++ ' ' :: arg := by
    apply trimBlanks_eq_self
    · rw [List.head?_append_of_ne_nil _ hne]
      exact fun c hc => (hm c (List.mem_of_mem_head? hc)).left
    · rw [List.getLast?_append_of_ne_nil _ (List.cons_ne_nil _ _), List.getLast?_cons_of_ne_nil hane]
      exact fun c hc => (ha c (List.mem_of_mem_getLast? hc)).left
  have hword : ∀ c ∈ m, (!isBlank c) = true := fun c hc => by simp [(hm c hc).left]
  have hblank : (!isBlank ' ') = false := rfl
  have htake : (m ++ ' ' :: arg).takeWhile (fun c => !isBlank c) = m := by
    rw [List.takeWhile_append_of_pos hword, List.takeWhile_cons_of_neg (by simp [hblank]), List.append_nil]
  have hdrop : (m ++ ' ' :: arg).dropWhile (fun c => !isBlank c) = ' ' :: arg := by
    rw [List.dropWhile_append_of_pos hword, List.dropWhile_cons_of_neg (by simp [hblank])]
  have harg : trimBlanks (' ' :: arg) = arg := ha.trimBlanks
  have hnonempty : m ++ ' ' :: arg ≠ [] := by simp
  simp only [assembleLine, hcomment, htext, if_neg hnonempty, htake, hdrop, harg]

theorem assembleLine_asmMnemonic (i : Instr) :
    assembleLine (asmMnemonic i).toList = assembleMnemonic (asmMnemonic i) [] := by
  obtain ⟨hplain, hne⟩ := plain_asmMnemonic i
  rw [assembleLine_word hplain hne, String.ofList_toList]

theorem assembleLine_asmMnemonic_byteText (i : Instr) (b : Byte) :
    assembleLine ((asmMnemonic i).toList ++ ' ' :: byteText b) = assembleMnemonic (asmMnemonic i) (byteText b) := by
  obtain ⟨hplain, hne⟩ := plain_asmMnemonic i
  rw [assembleLine_words hplain hne (plain_byteText b) (List.cons_ne_nil _ _), String.ofList_toList]

theorem withByte_byteText (mk : Byte → Instr) (b : Byte) : withByte mk (byteText b) = some [mk b] := by
  rw [withByte, byteOperand_byteText]

/-! ### Operations one after another (20_memory.md R59) -/

/-- The operations of the list, executed in order from `s`, all complete and end in `t`. -/
inductive Executes : List Instr → State → State → Prop
  | nil (s : State) : Executes [] s s
  | cons {i : Instr} {is : List Instr} {s u t : State} (first : exec i s = .next u) (others : Executes is u t) :
      Executes (i :: is) s t

theorem Executes.append {is js : List Instr} (hi : Executes is s u) (hj : Executes js u t) :
    Executes (is ++ js) s t := by
  induction hi with
  | nil _ => exact hj
  | cons first _ ih => exact .cons first (ih hj)

theorem Executes.single (e : exec i s = .next t) : Executes [i] s t := .cons e (.nil t)

/-- Operations that all complete do so as the oldest words of the port too, in one step each. -/
theorem Executes.runSteps_eq {is : List Instr} (h : Executes is s t) :
    runSteps is.length { s with port := opWords is ++ rest } = .next { t with port := rest } := by
  induction h with
  | nil _ => rfl
  | cons first _ ih => exact (runSteps_succ_of_exec _ first).trans ih

/-- The same from a state that has the words on its port. -/
theorem Executes.runSteps_of_port {is : List Instr} (h : Executes is s t) (hp : s.port = opWords is ++ rest) :
    runSteps is.length s = .next { t with port := rest } := by
  have hs : { s with port := opWords is ++ rest } = s := by rw [← hp]
  rw [← hs, h.runSteps_eq]

theorem opWords_append (is js : List Instr) : opWords (is ++ js) = opWords is ++ opWords js := List.map_append

/-! ### `tx.frame` builds `build_command` (30_encoding.md R85; 40_frame_codec.md R104) -/

theorem bytes_eq_bigEndian (v : Nat) : [hiByte (BitVec.ofNat 16 v), loByte (BitVec.ofNat 16 v)] = bigEndian v := by
  have hhi : hiByte (BitVec.ofNat 16 v) = BitVec.ofNat 8 (v / 256) := by
    apply BitVec.eq_of_toNat_eq
    simp only [hiByte_toNat, BitVec.toNat_ofNat]
    omega
  have hlo : loByte (BitVec.ofNat 16 v) = BitVec.ofNat 8 (v % 256) := by
    apply BitVec.eq_of_toNat_eq
    simp only [loByte_toNat, BitVec.toNat_ofNat]
    omega
  rw [hhi, hlo, bigEndian]

theorem sum16_eq_sumMod (xs : List Byte) : sum16 xs = BitVec.ofNat 16 (sumMod xs) := by
  apply BitVec.eq_of_toNat_eq
  rw [sum16_toNat, sumMod, BitVec.toNat_ofNat, Nat.mod_mod]

/-- The model's frame is the source's, byte for byte. -/
theorem frame_eq_buildCommand (sync addr c : Byte) (p : List Byte) :
    frame sync addr c p = buildCommand sync addr c p := by
  have hbody : frameBody sync addr c p = [sync, addr, c] ++ bigEndian (2 + p.length) ++ p := by
    rw [← bytes_eq_bigEndian]
    rfl
  rw [frame, withChecksum, sum16_eq_sumMod, bytes_eq_bigEndian, hbody, buildCommand]

theorem exec_txBegin (h : s.txState = .idle) : exec (.txBegin c) s =
    .next { s with txCmd := c, txPayload := [], txFrame := [], txValid := false, txState := .build } := by
  simp [exec, execTxBegin, h]

theorem exec_txPush (h : s.txState = .build) (hroom : s.txPayload.length < maxPayload) :
    exec (.txPush b) s = .next { s with txPayload := s.txPayload ++ [b] } := by
  simp [exec, execTxPush, h, hroom]

theorem exec_txEnd (h : s.txState = .build) (hfits : s.txPayload.length ≤ maxPayload) :
    exec .txEnd s = .next { s with
      txFrame := frame s.cfg.syncOut s.cfg.addrOut s.txCmd s.txPayload
      txValid := true
      txState := .idle } := by
  simp [exec, execTxEnd, h, hfits]

theorem executes_pushes (hstate : s.txState = .build) (hroom : s.txPayload.length + p.length ≤ maxPayload) :
    Executes (p.map .txPush) s { s with txPayload := s.txPayload ++ p } := by
  induction p generalizing s with
  | nil => simpa using Executes.nil s
  | cons b p ih =>
    rw [List.length_cons] at hroom
    have hothers := ih (s := { s with txPayload := s.txPayload ++ [b] }) hstate
      (by simp only [List.length_append, List.length_singleton]; omega)
    simp only [List.append_assoc, List.singleton_append] at hothers
    exact .cons (exec_txPush hstate (by omega)) hothers

/-- `s` with the builder holding the frame of `c` and `p`. -/
def withBuiltFrame (c : Byte) (p : List Byte) (s : State) : State :=
  { s with
    txState := .idle
    txCmd := c
    txPayload := p
    txFrame := buildCommand s.cfg.syncOut s.cfg.addrOut c p
    txValid := true }

theorem executes_txFrame (h : s.txState = .idle) (hp : p.length ≤ maxPayload) :
    Executes (expand (.txFrame c p)) s (withBuiltFrame c p s) := by
  refine .cons (exec_txBegin h) (.append (executes_pushes rfl (by simpa using hp)) ?_)
  rw [withBuiltFrame, ← frame_eq_buildCommand]
  exact .single (exec_txEnd rfl hp)

theorem expand_txFrame_length (c : Byte) (p : List Byte) : (expand (.txFrame c p)).length = p.length + 2 := by
  simp [expand]

/-! ### The reader takes a frame (41_response_reader.md R124 to R134) -/

theorem exec_rxStart (h : s.rxState = .idle ∨ s.rxState = .done) (hb : s.cfg.maxResyncBytes ≠ 0#32) :
    exec .rxStart s = .next { clearReader s with rxState := .seekSync, rxStatus := .busy } := by
  rcases h with h | h <;> simp [exec, execRxStart, h, hb, RxState.isReading]

/-- `s` after the five bytes of a frame head with the length field `len` (41_response_reader.md R124 to R131). -/
def headTaken (c : Byte) (len : Half) (s : State) : State :=
  { s with
    rxBudget := s.rxBudget - 1#32
    rxRaw := frameBodyWith s.cfg.syncIn s.cfg.addrIn c len []
    rxSum := sum16 (frameBodyWith s.cfg.syncIn s.cfg.addrIn c len [])
    rxCmd := c
    rxLen := len
    rxRemaining := len - 2#16
    rxState := if len = 2#16 then .chkHi else .payload }

theorem sum16_cons (b : Byte) (xs : List Byte) : sum16 (b :: xs) = zext16 b + sum16 xs := by
  rw [← List.singleton_append, sum16_append, sum16_singleton]

/-- The length's low byte completes a length of at least 2 (41_response_reader.md R131). -/
theorem exec_rxByte_lenLo (hstate : s.rxState = .lenLo) (hlen : 2 ≤ (joinBytes (hiByte s.rxLen) b).toNat) :
    exec (.rxByte b) s = .next { addFrameByte b s with
      rxLen := joinBytes (hiByte s.rxLen) b
      rxRemaining := joinBytes (hiByte s.rxLen) b - 2#16
      rxState := if joinBytes (hiByte s.rxLen) b = 2#16 then .chkHi else .payload } := by
  simp [exec, execRxByte, hstate, lenLoByte, Nat.not_lt.mpr hlen]

/-- The sync byte, with budget left to examine it (41_response_reader.md R124). -/
theorem exec_rxByte_sync (hstate : s.rxState = .seekSync) (hbudget : s.rxBudget ≠ 0#32) :
    exec (.rxByte s.cfg.syncIn) s = .next { s with
      rxBudget := s.rxBudget - 1#32
      rxRaw := [s.cfg.syncIn]
      rxSum := zext16 s.cfg.syncIn
      rxState := .seekAddr } := by
  simp [exec, execRxByte_of_seekSync hstate, examine, hbudget]

/-- Sync byte, address byte, command code and the two bytes of the length, in this order. -/
theorem executes_head {len : Half} (hstate : s.rxState = .seekSync) (hbudget : s.rxBudget ≠ 0#32)
    (hlen : 2 ≤ len.toNat) :
    Executes ((frameBodyWith s.cfg.syncIn s.cfg.addrIn c len []).map .rxByte) s (headTaken c len s) := by
  have hjoin : joinBytes (hiByte (joinBytes (hiByte len) 0x00#8)) (loByte len) = len := by simp
  refine .cons (exec_rxByte_sync hstate hbudget) (.cons (if_pos rfl) (.cons rfl (.cons rfl (.single ?_))))
  refine (exec_rxByte_lenLo rfl (by rwa [hjoin])).trans ?_
  simp [addFrameByte, headTaken, frameBodyWith, sum16_cons, BitVec.add_assoc]

/-- One payload byte is taken while any remain (41_response_reader.md R132). -/
theorem exec_rxByte_payload (hstate : s.rxState = .payload) (hrem : s.rxRemaining ≠ 0#16) :
    exec (.rxByte b) s = .next { addFrameByte b s with
      rxPayload := s.rxPayload ++ [b]
      rxRemaining := s.rxRemaining - 1#16
      rxState := if s.rxRemaining - 1#16 = 0#16 then .chkHi else .payload } := by
  simp [exec, execRxByte, hstate, payloadByte, hrem]

/-- `s` after all the payload bytes that remained (41_response_reader.md R132). -/
def payloadTaken (p : List Byte) (s : State) : State :=
  { s with
    rxRaw := s.rxRaw ++ p
    rxSum := s.rxSum + sum16 p
    rxPayload := s.rxPayload ++ p
    rxRemaining := 0#16
    rxState := .chkHi }

/-- By induction on the bytes that remain; with none remaining the reader stands in `CHK_HI` already. -/
theorem executes_payload (hstate : s.rxState = if s.rxRemaining = 0#16 then .chkHi else .payload)
    (hrem : s.rxRemaining.toNat = p.length) : Executes (p.map .rxByte) s (payloadTaken p s) := by
  induction p generalizing s with
  | nil =>
    have hzero : s.rxRemaining = 0#16 := BitVec.eq_of_toNat_eq hrem
    rw [if_pos hzero] at hstate
    have hsame : payloadTaken [] s = s := by
      simp only [payloadTaken, sum16_nil, BitVec.add_zero, List.append_nil]
      rw [← hstate, ← hzero]
    rw [hsame]
    exact .nil s
  | cons b p ih =>
    have hpos : s.rxRemaining ≠ 0#16 := by rintro hzero; simp [hzero] at hrem
    have hspent : (s.rxRemaining - 1#16).toNat = p.length := by
      rw [List.length_cons] at hrem
      bv_omega
    rw [if_neg hpos] at hstate
    refine .cons (exec_rxByte_payload hstate hpos) ?_
    convert ih (s := { addFrameByte b s with
      rxPayload := s.rxPayload ++ [b]
      rxRemaining := s.rxRemaining - 1#16
      rxState := if s.rxRemaining - 1#16 = 0#16 then .chkHi else .payload }) rfl hspent using 1
    simp [payloadTaken, addFrameByte, sum16_cons, BitVec.add_assoc]

/-- `s` with the frame under scan accepted on the checksum field it holds the sum of (41_response_reader.md R134). -/
def checksumTaken (s : State) : State :=
  { s with
    rxRaw := s.rxRaw ++ [hiByte s.rxSum, loByte s.rxSum]
    rxChkHi := hiByte s.rxSum
    rxChk := s.rxSum
    rxState := .done
    rxStatus := .ok
    rxFrameValid := true }

theorem executes_checksum (hstate : s.rxState = .chkHi) :
    Executes ([hiByte s.rxSum, loByte s.rxSum].map .rxByte) s (checksumTaken s) := by
  have hhi : exec (.rxByte (hiByte s.rxSum)) s =
      .next { addChecksumByte (hiByte s.rxSum) s with rxChkHi := hiByte s.rxSum, rxState := .chkLo } := by
    simp [exec, execRxByte, hstate, chkHiByte]
  refine .cons hhi (.single ?_)
  simp [exec, execRxByte, chkLoByte, addChecksumByte, checksumTaken]

/-- `s` after a whole frame with the command code `c` and the payload `p`. -/
def frameTaken (c : Byte) (p : List Byte) (s : State) : State :=
  checksumTaken (payloadTaken p (headTaken c (lengthField p.length) s))

theorem frameBody_eq_append (sync addr c : Byte) (p : List Byte) :
    frameBody sync addr c p = frameBodyWith sync addr c (lengthField p.length) [] ++ p := rfl

theorem executes_frame (hstate : s.rxState = .seekSync) (hbudget : s.rxBudget ≠ 0#32) (hp : p.length ≤ maxPayload) :
    Executes ((frame s.cfg.syncIn s.cfg.addrIn c p).map .rxByte) s (frameTaken c p s) := by
  have hlen := lengthField_toNat hp
  have hhead := executes_head (c := c) hstate hbudget (by omega : 2 ≤ (lengthField p.length).toNat)
  have hrem : (headTaken c (lengthField p.length) s).rxRemaining.toNat = p.length := by
    simp only [headTaken]; bv_omega
  have hzero : lengthField p.length = 2#16 ↔ lengthField p.length - 2#16 = 0#16 := by bv_omega
  have hpayload := executes_payload (s := headTaken c (lengthField p.length) s) (by simp [headTaken, hzero]) hrem
  have hsum : (payloadTaken p (headTaken c (lengthField p.length) s)).rxSum =
      sum16 (frameBody s.cfg.syncIn s.cfg.addrIn c p) := (sum16_append _ _).symm
  have hchecksum := executes_checksum (s := payloadTaken p (headTaken c (lengthField p.length) s)) rfl
  rw [hsum] at hchecksum
  rw [frame, withChecksum, frameBody_eq_append, List.map_append, List.map_append]
  exact (hhead.append hpayload).append hchecksum

theorem frameTaken_rxRaw (c : Byte) (p : List Byte) (s : State) :
    (frameTaken c p s).rxRaw = frame s.cfg.syncIn s.cfg.addrIn c p := by
  rw [frame, withChecksum, frameBody_eq_append, sum16_append]
  rfl

end

/-! ### The obligations -/

/-- Settles O1: the decoder answers an operation only on its own word, and on that word it does. -/
theorem decodeAndEncodeAgree : Obligations.DecodeAndEncodeAgree :=
  fun _ i => ⟨eq_encode_of_decode, fun h => h ▸ decode_encode i⟩

/-- Settles O2: the two lists are what the decoder refuses, so a word on neither is an operation. -/
theorem reservedWordsRefused : Obligations.ReservedWordsRefused := by
  intro s w rest hp op imm badOp badImm
  have hop : decode w = .reserved .opcode ↔ badOp := by
    rw [decode, decodeFields_eq_reserved_opcode, opField_toNat]
  have himm : decode w = .reserved .operand ↔ badImm := by
    rw [decode, decodeFields_eq_reserved_operand, opField_toNat, immField_toNat]
  refine ⟨fun h => step_reserved hp (hop.mpr h), fun h => step_reserved hp (himm.mpr h), fun hnop hnimm => ?_⟩
  cases hd : decode w with
  | instr i => exact ⟨i, rfl⟩
  | reserved r =>
    cases r with
    | opcode => exact absurd (hop.mp hd) hnop
    | operand => exact absurd (himm.mp hd) hnimm

/-- Settles O4: the model's own written words. -/
theorem writtenWordsDecode : Obligations.WrittenWordsDecode :=
  ⟨decode_word_txBegin, decode_word_txPush, decode_word_txEnd, decode_word_csumAdd, decode_word_rxByte,
    decode_word_rxUnderrun, decode_word_rxChfault⟩

/-- Settles O6: the line is the mnemonic, with the operand's two hexadecimal digits behind it where there is one. -/
theorem assemblyLineRoundTrip : Obligations.AssemblyLineRoundTrip := by
  intro i
  cases i with
  | txEnd | csumClr | rxStart | rxUnderrun =>
    rw [asmLine, assembleLine_asmMnemonic]
    rfl
  | txBegin b | txPush b | csumAdd b | rxByte b | rxChfault b =>
    rw [asmLine, assembleLine_asmMnemonic_byteText]
    exact withByte_byteText _ b

/-- Settles O13: the three operations of the builder one after another (`executes_txFrame`). -/
theorem txFrameBuildsCommand : Obligations.TxFrameBuildsCommand := by
  intro c p s rest hp hidle hport
  have hrun := (executes_txFrame hidle hp).runSteps_of_port hport
  rwa [expand_txFrame_length] at hrun

/-- Settles O53: the builder leaves the reader in its state, `RX_START` sends it to `SEEK_SYNC` with budget left, and
from there it takes the whole frame (`executes_frame`). -/
theorem builtFrameIsAccepted : Obligations.BuiltFrameIsAccepted := by
  intro c p s rest hp hidle hready hsync haddr hbudget hport
  have hpos : s.cfg.maxResyncBytes ≠ 0#32 := by rintro h; simp [h] at hbudget
  have hbuild := executes_txFrame (c := c) hidle hp
  have hstart := exec_rxStart (s := withBuiltFrame c p s) hready hpos
  have hread := executes_frame (c := c) (p := p)
    (s := { clearReader (withBuiltFrame c p s) with rxState := .seekSync, rxStatus := .busy }) rfl hpos hp
  have hall := hbuild.append (.cons hstart hread)
  have hframe : frame s.cfg.syncIn s.cfg.addrIn c p = buildCommand s.cfg.syncOut s.cfg.addrOut c p := by
    rw [frame_eq_buildCommand, hsync, haddr]
  have hwords : s.port = opWords (expand (.txFrame c p) ++
      .rxStart :: (frame s.cfg.syncIn s.cfg.addrIn c p).map .rxByte) ++ rest := by
    rw [hport, hframe, opWords_append, List.append_assoc]
    rfl
  have hrun := hall.runSteps_of_port hwords
  rw [List.length_append, expand_txFrame_length, List.length_cons, List.length_map, frame_length,
    Nat.add_comm (p.length + 7)] at hrun
  exact ⟨_, hrun, rfl, (frameTaken_rxRaw ..).trans hframe, rfl, rfl, rfl, rfl⟩

end Sys2Proof.Machine

/-! # The frame codec family (40_frame_codec.md)

The operations of the frame builder and the checksum unit, the frame `TX_END` writes, and `csum.seq`. -/

namespace Sys2Proof.Machine

open Sys2Proof.Claims

section

variable {s : State} {b c : Byte}

/-! ### What the builder refuses (40_frame_codec.md R101 to R103) -/

theorem exec_txBegin_refused (h : s.txState = .build) : exec (.txBegin c) s = .refused .txBeginWhileBuilding := by
  simp [exec, execTxBegin, h]

theorem exec_txPush_refused_idle (h : s.txState = .idle) : exec (.txPush b) s = .refused .txPushWhileIdle := by
  simp [exec, execTxPush, h]

theorem exec_txPush_refused_full (h : s.txState = .build) (hfull : maxPayload ≤ s.txPayload.length) :
    exec (.txPush b) s = .refused .txPayloadFull := by
  simp [exec, execTxPush, h, Nat.not_lt.mpr hfull]

theorem exec_txEnd_refused (h : s.txState = .idle) : exec .txEnd s = .refused .txEndWhileIdle := by
  simp [exec, execTxEnd, h]

/-! ### Taking a built frame apart (30_encoding.md R71 to R73) -/

theorem bytes_toNat (v : Half) : (hiByte v).toNat * 256 + (loByte v).toNat = v.toNat := by
  rw [← joinBytes_toNat, joinBytes_bytes]

theorem frameBody_length (sync addr cmd : Byte) (p : List Byte) :
    (frameBody sync addr cmd p).length = 5 + p.length := by
  rw [frameBody, frameBodyWith_length, Nat.add_comm]

theorem take_frame (sync addr cmd : Byte) (p : List Byte) :
    (frame sync addr cmd p).take (5 + p.length) = frameBody sync addr cmd p :=
  List.take_left' (frameBody_length ..)

/-- The byte at position `k` of a frame's checksum field. -/
theorem frame_getD_checksum (sync addr cmd : Byte) (p : List Byte) (k : Nat) :
    (frame sync addr cmd p).getD (5 + p.length + k) 0#8 =
      [hiByte (sum16 (frameBody sync addr cmd p)), loByte (sum16 (frameBody sync addr cmd p))].getD k 0#8 := by
  have hpast : (frameBody sync addr cmd p).length ≤ 5 + p.length + k := by rw [frameBody_length]; omega
  rw [frame, withChecksum, List.getD_append_right _ _ _ _ hpast, frameBody_length, Nat.add_sub_cancel_left]

/-- The checksum field holds the sum of the bytes before it (40_frame_codec.md R105(a)). -/
theorem frame_checksum (sync addr cmd : Byte) (p : List Byte) :
    sumMod ((frame sync addr cmd p).take (5 + p.length)) =
      ((frame sync addr cmd p).getD (5 + p.length) 0#8).toNat * 256 +
        ((frame sync addr cmd p).getD (6 + p.length) 0#8).toNat := by
  have hhi := frame_getD_checksum sync addr cmd p 0
  have hlo := frame_getD_checksum sync addr cmd p 1
  rw [show 5 + p.length + 1 = 6 + p.length by omega] at hlo
  rw [take_frame, ← Nat.add_zero (5 + p.length), hhi, hlo]
  exact (sum16_toNat _).symm.trans (bytes_toNat _).symm

/-- The length field holds the payload's length and 2 more (40_frame_codec.md R105(b)). -/
theorem frame_lengthField (sync addr cmd : Byte) {p : List Byte} (h : p.length ≤ maxPayload) :
    ((frame sync addr cmd p).getD 3 0#8).toNat * 256 + ((frame sync addr cmd p).getD 4 0#8).toNat = 2 + p.length :=
  (bytes_toNat _).trans (lengthField_toNat h)

/-- The payload stands behind the five bytes of the head (40_frame_codec.md R105(c)). -/
theorem frame_payload (sync addr cmd : Byte) (p : List Byte) :
    ((frame sync addr cmd p).drop 5).take p.length = p :=
  List.take_left

/-! ### Summing in the checksum unit (40_frame_codec.md R106 to R108) -/

theorem add_zext16 (v : Half) (b : Byte) : v + zext16 b = BitVec.ofNat 16 ((v.toNat + b.toNat) % 65536) := by
  apply BitVec.eq_of_toNat_eq
  rw [BitVec.toNat_add, zext16_toNat, BitVec.toNat_ofNat, Nat.mod_mod]

theorem executes_csumAdds (xs : List Byte) (s : State) :
    Executes (xs.map .csumAdd) s { s with csumAcc := s.csumAcc + sum16 xs } := by
  induction xs generalizing s with
  | nil => simpa using Executes.nil s
  | cons b xs ih =>
    rw [sum16_cons, ← BitVec.add_assoc]
    exact .cons rfl (ih { s with csumAcc := s.csumAcc + zext16 b })

theorem executes_csumSeq (xs : List Byte) (s : State) :
    Executes (expand (.csumSeq xs)) s { s with csumAcc := sum16 xs } := by
  have hsum := executes_csumAdds xs { s with csumAcc := 0x0000#16 }
  rw [BitVec.zero_add] at hsum
  exact .cons rfl hsum

theorem expand_csumSeq_length (xs : List Byte) : (expand (.csumSeq xs)).length = xs.length + 1 := by
  simp [expand]

end

/-! ### The obligations -/

/-- Settles O14: the frame is head, payload and checksum, and each property is read off one of them. -/
theorem builtFrameProperties : Obligations.BuiltFrameProperties := by
  intro s t e
  obtain ⟨-, hfits, rfl⟩ := execTxEnd_next e
  intro f n
  have hlen : f.length = s.txPayload.length + 7 := frame_length ..
  have hn : n = s.txPayload.length := by omega
  rw [hn]
  exact ⟨by omega, rfl, frame_checksum .., frame_lengthField _ _ _ hfits, rfl, rfl, rfl, frame_payload ..⟩

/-- Settles O17: the run leaves the sum of `ys` (`executes_csumSeq`), which does not depend on their order. -/
theorem csumSeqComputesChecksum : Obligations.CsumSeqComputesChecksum := by
  intro xs ys s rest hperm hport acc
  have hrun := (executes_csumSeq ys s).runSteps_of_port hport
  rw [expand_csumSeq_length, hperm.length_eq, sum16_perm hperm, sum16_eq_sumMod] at hrun
  exact ⟨hrun, (bytes_eq_bigEndian _).symm⟩

/-- Settles O9: the builder's two states, each with its equation; no command code is looked at. -/
theorem txBeginEffect : Obligations.TxBeginEffect :=
  fun _ _ => ⟨rfl, exec_txBegin, exec_txBegin_refused⟩

/-- Settles O10: in `TX_IDLE` it is the same refusal whatever the payload's length. -/
theorem txPushEffect : Obligations.TxPushEffect :=
  fun _ _ => ⟨rfl, exec_txPush, fun hbuild hfull => exec_txPush_refused_full hbuild hfull.ge,
    fun hidle _ => exec_txPush_refused_idle hidle, fun hidle _ => .inl (exec_txPush_refused_idle hidle)⟩

/-- Settles O11: the state is tested before the payload's length. -/
theorem txPushIdleBeforeFull : Obligations.TxPushIdleBeforeFull :=
  fun _ _ => exec_txPush_refused_idle

/-- Settles O12: the frame of the model, its definitions written out, is the one of the rule's pseudocode. -/
theorem txEndEffect : Obligations.TxEndEffect :=
  fun _ => ⟨rfl, fun hbuild hfits => ⟨lengthField_toNat hfits, exec_txEnd hbuild hfits⟩, exec_txEnd_refused⟩

/-- Settles O15: the operation reads nothing of the state. -/
theorem csumClrEffect : Obligations.CsumClrEffect :=
  fun _ => ⟨rfl, rfl⟩

/-- Settles O16: the machine's addition of the zero-extended byte is addition modulo 65536 (`add_zext16`). -/
theorem csumAddEffect : Obligations.CsumAddEffect := by
  intro b s
  rw [← add_zext16]
  exact ⟨rfl, rfl⟩

end Sys2Proof.Machine

/-! # The response reader family (41_response_reader.md)

What `RX_START`, each delivered byte in each reader state, and the other answers of the byte source do. -/

namespace Sys2Proof.Machine

open Sys2Proof.Claims

section

variable {s t u : State} {b c y : Byte} {i : Instr} {e : SourceEvent} {rest : List OpWord}

/-! ### RX_START and the answers without a byte (41_response_reader.md R122, R135, R136) -/

theorem isReading_eq_false (h : s.rxState = .idle ∨ s.rxState = .done) : s.rxState.isReading = false := by
  rcases h with h | h <;> rw [h] <;> rfl

theorem exec_rxStart_refused (hr : s.rxState.isReading = true) : exec .rxStart s = .refused .rxStartWhileBusy :=
  if_pos hr

/-- With no budget at all the invocation has ended already (60_exceptions.md R172(e)). -/
theorem exec_rxStart_noBudget (h : s.rxState = .idle ∨ s.rxState = .done) (hb : s.cfg.maxResyncBytes = 0#32) :
    exec .rxStart s = .next (raiseFailure .noFrame (clearReader s)) := by
  simp [exec, execRxStart, isReading_eq_false h, hb]

theorem exec_rxUnderrun (hr : s.rxState.isReading = true) :
    exec .rxUnderrun s = .next (raiseFailure .underrun s) :=
  answerRequest_of_reading hr _

theorem exec_rxChfault (hr : s.rxState.isReading = true) :
    exec (.rxChfault c) s = .next (raiseFailure (.channelFault c) s) :=
  answerRequest_of_reading hr _

theorem answerRequest_refused (h : s.rxState = .idle ∨ s.rxState = .done) (o : StepOutcome) :
    answerRequest s o = .refused .rxEventNotReading := by
  simp [answerRequest, isReading_eq_false h]

/-- No answer is taken where no request is outstanding (41_response_reader.md R123, R135, R136). -/
theorem exec_sourceOp_refused (e : SourceEvent) (h : s.rxState = .idle ∨ s.rxState = .done) :
    exec (sourceOp e) s = .refused .rxEventNotReading := by
  cases e with
  | byte b => rcases h with h | h <;> simp [sourceOp, exec, execRxByte, h]
  | underrun => exact answerRequest_refused h _
  | chfault c => exact answerRequest_refused h _

/-! ### A byte while seeking (41_response_reader.md R124 to R128) -/

theorem budget_ne_zero {k : Budget} (h : 1 ≤ k.toNat) : k ≠ 0#32 := by
  bv_omega

theorem examine_sync (hbudget : s.rxBudget ≠ 0#32) : examine s.cfg.syncIn s = .next { s with
    rxBudget := s.rxBudget - 1#32
    rxRaw := [s.cfg.syncIn]
    rxSum := zext16 s.cfg.syncIn
    rxState := .seekAddr } := by
  simp [examine, hbudget]

/-- Another byte spends the last unit of the budget. -/
theorem examine_last (hbudget : s.rxBudget ≠ 0#32) (hb : b ≠ s.cfg.syncIn) (hlast : s.rxBudget - 1#32 = 0#32) :
    examine b s = .next (raiseFailure .noFrame { s with rxBudget := s.rxBudget - 1#32 }) := by
  simp only [examine, if_neg hbudget, if_neg hb, if_pos hlast]

/-- Another byte leaves budget to go on seeking with. -/
theorem examine_skip (hbudget : s.rxBudget ≠ 0#32) (hb : b ≠ s.cfg.syncIn) (hleft : s.rxBudget - 1#32 ≠ 0#32) :
    examine b s = .next { s with rxBudget := s.rxBudget - 1#32, rxState := .seekSync } := by
  simp only [examine, if_neg hbudget, if_neg hb, if_neg hleft]

theorem exec_rxByte_seekSync (hq : s.rxState = .seekSync) : exec (.rxByte b) s = examine b s :=
  execRxByte_of_seekSync hq

theorem exec_rxByte_seekAddr (hq : s.rxState = .seekAddr) : exec (.rxByte b) s = seekAddrByte b s :=
  execRxByte_of_seekAddr hq

theorem seekAddrByte_match : seekAddrByte s.cfg.addrIn s =
    .next { addFrameByte s.cfg.addrIn s with rxState := .hdrCmd } :=
  if_pos rfl

theorem seekAddrByte_failFast (hb : b ≠ s.cfg.addrIn) (hpolicy : s.cfg.addrPolicy = .failFast) :
    seekAddrByte b s = .next (raiseFailure .addrMismatch s) := by
  simp [seekAddrByte, hb, hpolicy]

theorem seekAddrByte_resync_spent (hb : b ≠ s.cfg.addrIn) (hpolicy : s.cfg.addrPolicy = .resync)
    (hspent : s.rxBudget = 0#32) :
    seekAddrByte b s = .next (raiseFailure .noFrame { s with rxRaw := [], rxSum := 0x0000#16 }) := by
  simp [seekAddrByte, hb, hpolicy, resyncByte, hspent]

/-- The mismatching byte is examined, with nothing of the frame under scan left. -/
theorem seekAddrByte_resync (hb : b ≠ s.cfg.addrIn) (hpolicy : s.cfg.addrPolicy = .resync)
    (hbudget : s.rxBudget ≠ 0#32) :
    seekAddrByte b s = examine b { s with rxRaw := [], rxSum := 0x0000#16 } := by
  simp [seekAddrByte, hb, hpolicy, resyncByte, hbudget]

/-! ### A byte of the frame (41_response_reader.md R129 to R134) -/

theorem exec_rxByte_hdrCmd (hq : s.rxState = .hdrCmd) :
    exec (.rxByte b) s = .next { addFrameByte b s with rxCmd := b, rxState := .lenHi } := by
  simp [exec, execRxByte, hq, hdrCmdByte]

theorem exec_rxByte_lenHi (hq : s.rxState = .lenHi) :
    exec (.rxByte b) s = .next { addFrameByte b s with rxLen := joinBytes b 0x00#8, rxState := .lenLo } := by
  simp [exec, execRxByte, hq, lenHiByte]

/-- A length field below 2 counts less than itself (41_response_reader.md R131). -/
theorem exec_rxByte_lenLo_invalid (hq : s.rxState = .lenLo) (hlen : (joinBytes (hiByte s.rxLen) b).toNat < 2) :
    exec (.rxByte b) s = .next (raiseFailure .lengthInvalid
      { addFrameByte b s with rxLen := joinBytes (hiByte s.rxLen) b }) := by
  simp [exec, execRxByte, hq, lenLoByte, hlen]

theorem exec_rxByte_chkHi (hq : s.rxState = .chkHi) :
    exec (.rxByte b) s = .next { addChecksumByte b s with rxChkHi := b, rxState := .chkLo } := by
  simp [exec, execRxByte, hq, chkHiByte]

theorem exec_rxByte_chkLo_match (hq : s.rxState = .chkLo) (hsum : joinBytes s.rxChkHi b = s.rxSum) :
    exec (.rxByte b) s = .next { addChecksumByte b s with
      rxChk := joinBytes s.rxChkHi b
      rxState := .done
      rxStatus := .ok
      rxFrameValid := true } := by
  simp only [exec, execRxByte, hq, chkLoByte, if_pos hsum]

theorem exec_rxByte_chkLo_mismatch (hq : s.rxState = .chkLo) (hsum : joinBytes s.rxChkHi b ≠ s.rxSum) :
    exec (.rxByte b) s = .next (raiseFailure .checksumMismatch
      { addChecksumByte b s with rxChk := joinBytes s.rxChkHi b }) := by
  simp only [exec, execRxByte, hq, chkLoByte, if_neg hsum]

theorem joinBytes_eq_ofNat (hi lo : Byte) : joinBytes hi lo = BitVec.ofNat 16 (hi.toNat * 256 + lo.toNat) := by
  rw [← joinBytes_toNat, BitVec.ofNat_toNat, BitVec.setWidth_eq]

/-- From `HDR_CMD` on a byte neither reads the budget nor writes it (41_response_reader.md R126). -/
theorem exec_rxByte_withBudget (k : Budget) (hq : 3 ≤ s.rxState.code.toNat) (e : exec (.rxByte b) s = .next t) :
    exec (.rxByte b) { s with rxBudget := k } = .next { t with rxBudget := k } := by
  rcases execRxByte_next e with ⟨h, he⟩ | ⟨h, he⟩ | ⟨h, he⟩ | ⟨h, he⟩ | ⟨h, he⟩ | ⟨h, he⟩ | ⟨h, he⟩ | ⟨h, he⟩
  · simp [h, RxState.code] at hq
  · simp [h, RxState.code] at hq
  · obtain rfl := hdrCmdByte_next he; exact exec_rxByte_hdrCmd h
  · obtain rfl := lenHiByte_next he; exact exec_rxByte_lenHi h
  · obtain ⟨hshort, rfl⟩ | ⟨hlong, rfl⟩ := lenLoByte_next he
    · exact exec_rxByte_lenLo_invalid (s := { s with rxBudget := k }) h hshort
    · exact exec_rxByte_lenLo (s := { s with rxBudget := k }) h hlong
  · obtain ⟨hpos, rfl⟩ := payloadByte_next he; exact exec_rxByte_payload (s := { s with rxBudget := k }) h hpos
  · obtain rfl := chkHiByte_next he; exact exec_rxByte_chkHi h
  · obtain ⟨hsum, rfl⟩ | ⟨hsum, rfl⟩ := chkLoByte_next he
    · exact exec_rxByte_chkLo_match (s := { s with rxBudget := k }) h hsum
    · exact exec_rxByte_chkLo_mismatch (s := { s with rxBudget := k }) h hsum

end

/-- Settles O19: under the invariant no answer faults, and a reading state refuses none. -/
theorem sourceEventsEnabledWhenReading : Obligations.SourceEventsEnabledWhenReading :=
  fun e _ => ⟨exec_sourceOp_of_reading e, exec_sourceOp_refused e, fun _ => rfl⟩

/-- Settles O18: two cases of the budget, and the refusal while an invocation is running. -/
theorem rxStartEffect : Obligations.RxStartEffect :=
  fun _ => ⟨rfl, fun h => ⟨exec_rxStart_noBudget h, exec_rxStart h⟩, exec_rxStart_refused⟩

/-- Settles O20: the three outcomes of an examination. -/
theorem seekSyncByteEffect : Obligations.SeekSyncByteEffect := by
  intro b s hq hone k
  have hbudget := budget_ne_zero hone
  rw [exec_rxByte_seekSync hq]
  have hspent : (s.rxBudget - 1#32).toNat + 1 = s.rxBudget.toNat := by bv_omega
  exact ⟨hspent, fun hb => hb ▸ examine_sync hbudget, examine_last hbudget, examine_skip hbudget⟩

/-- Settles O21: the address byte's equation, and the budget's independence of the states behind it. -/
theorem addressMatchEffect : Obligations.AddressMatchEffect := by
  constructor
  · rintro b s hq rfl
    rw [exec_rxByte_seekAddr hq, seekAddrByte_match, ← add_zext16]
    rfl
  · exact fun _ _ _ k hq e => exec_rxByte_withBudget k hq e

/-- Settles O22: no budget is looked at. -/
theorem addressMismatchFailFast : Obligations.AddressMismatchFailFast :=
  fun _ _ hq hb hpolicy => (exec_rxByte_seekAddr hq).trans (seekAddrByte_failFast hb hpolicy)

/-- Settles O23: with budget left the byte is examined on a fresh sum, with the three outcomes of an examination. -/
theorem addressMismatchResync : Obligations.AddressMismatchResync := by
  intro b s hq hb hpolicy k
  rw [exec_rxByte_seekAddr hq]
  refine ⟨seekAddrByte_resync_spent hb hpolicy, fun hbudget => ?sync, fun hbudget => ?last, fun hbudget => ?skip⟩
  all_goals rw [seekAddrByte_resync hb hpolicy hbudget]
  case sync => rintro rfl; exact examine_sync hbudget
  case last => exact examine_last (s := { s with rxRaw := [], rxSum := 0x0000#16 }) hbudget
  case skip => exact examine_skip (s := { s with rxRaw := [], rxSum := 0x0000#16 }) hbudget

/-- Settles O24: the byte is not looked at. -/
theorem commandByteEffect : Obligations.CommandByteEffect := by
  intro b s hq
  rw [← add_zext16]
  exact exec_rxByte_hdrCmd hq

/-- Settles O25: joined with a low byte of 0 the high byte counts 256 times. -/
theorem lengthHighByteEffect : Obligations.LengthHighByteEffect := by
  intro b s hq
  have hlen : BitVec.ofNat 16 (b.toNat * 256) = joinBytes b 0x00#8 := by simp [joinBytes_eq_ofNat]
  rw [← add_zext16, hlen]
  exact exec_rxByte_lenHi hq

/-- Settles O26: the model's length is the rule's, which is what the boundary decision tests. -/
theorem lengthLowByteEffect : Obligations.LengthLowByteEffect := by
  intro b s hq len taken
  have hjoin : joinBytes (hiByte s.rxLen) b = BitVec.ofNat 16 len := by rw [joinBytes_eq_ofNat, hiByte_toNat]
  have hlen : (joinBytes (hiByte s.rxLen) b).toNat = len := by rw [joinBytes_toNat, hiByte_toNat]
  have htaken : taken = { addFrameByte b s with rxLen := joinBytes (hiByte s.rxLen) b } := by
    rw [hjoin, addFrameByte, add_zext16]
  rw [htaken]
  refine ⟨fun hshort => exec_rxByte_lenLo_invalid hq (hlen ▸ hshort), fun htwo => ?_, fun hlong => ?_⟩
  · have heq : joinBytes (hiByte s.rxLen) b = 2#16 := by rw [hjoin, htwo]
    rw [exec_rxByte_lenLo hq (by omega), if_pos heq, heq]
    rfl
  · have hne : joinBytes (hiByte s.rxLen) b ≠ 2#16 := by rintro heq; simp [heq] at hlen; omega
    have hrest : joinBytes (hiByte s.rxLen) b - 2#16 = BitVec.ofNat 16 (len - 2) := by bv_omega
    rw [exec_rxByte_lenLo hq (by omega), if_neg hne, hrest]

/-- Settles O27: counting down in 16 bits is counting down, with at least one byte remaining. -/
theorem payloadByteEffect : Obligations.PayloadByteEffect := by
  intro b s hq hone r
  have hpos : s.rxRemaining ≠ 0#16 := by bv_omega
  have hrest : s.rxRemaining - 1#16 = BitVec.ofNat 16 r := by bv_omega
  have hlast : s.rxRemaining - 1#16 = 0#16 ↔ r = 0 := by bv_omega
  rw [exec_rxByte_payload hq hpos, ← add_zext16, ← hrest]
  simp only [hlast]
  rfl

/-- Settles O28: `addChecksumByte` leaves the sum. -/
theorem checksumHighByteEffect : Obligations.ChecksumHighByteEffect :=
  fun _ _ hq => exec_rxByte_chkHi hq

/-- Settles O29: the model joins the two bytes to the value the rule compares. -/
theorem checksumLowByteEffect : Obligations.ChecksumLowByteEffect := by
  intro b s hq
  rw [← joinBytes_eq_ofNat]
  exact ⟨exec_rxByte_chkLo_match hq, exec_rxByte_chkLo_mismatch hq⟩

/-- Settles O30: one failure entry for all the reading states. -/
theorem rxUnderrunEffect : Obligations.RxUnderrunEffect :=
  fun _ => ⟨rfl, exec_rxUnderrun, exec_sourceOp_refused .underrun⟩

/-- Settles O31: the failure entry carries the code through. -/
theorem rxChfaultEffect : Obligations.RxChfaultEffect :=
  fun c _ => ⟨rfl, exec_rxChfault, exec_sourceOp_refused (.chfault c)⟩

end Sys2Proof.Machine

/-! # Whole invocations (41_response_reader.md R137 to R139, R143)

What ends an invocation, what an accepted one holds, and that every invocation ends. -/

namespace Sys2Proof.Machine

open Sys2Proof.Claims

section

variable {s t : State} {b : Byte} {i : Instr} {u : Turn} {taken : List Byte} {rest : List OpWord}

/-! ### What ends an invocation (60_exceptions.md R167) -/

/-- The outcome registers of an invocation that has ended: an accepted frame or a failure (41_response_reader.md R143). -/
def EndsInOutcome (s : State) : Prop :=
  (s.rxStatus = .ok ∧ s.rxFrameValid = true) ∨ (s.rxStatus.isFailure = true ∧ s.rxFrameValid = false)

theorem Failure.isFailure_status (k : Failure) : k.status.isFailure = true := by
  cases k <;> rfl

theorem raiseFailure_endsInOutcome (k : Failure) (s : State) : EndsInOutcome (raiseFailure k s) :=
  .inr ⟨k.isFailure_status, rfl⟩

theorem examine_endsInOutcome (e : examine b s = .next t) (hdone : t.rxState = .done) : EndsInOutcome t := by
  obtain ⟨-, ⟨-, rfl⟩ | ⟨-, -, rfl⟩ | ⟨-, -, rfl⟩⟩ := examine_next e
  · cases hdone
  · exact raiseFailure_endsInOutcome ..
  · cases hdone

theorem seekAddrByte_endsInOutcome (e : seekAddrByte b s = .next t) (hdone : t.rxState = .done) :
    EndsInOutcome t := by
  rcases seekAddrByte_next e with ⟨-, rfl⟩ | ⟨-, -, rfl⟩ | ⟨-, -, he⟩
  · cases hdone
  · exact raiseFailure_endsInOutcome ..
  · rcases resyncByte_next he with ⟨-, rfl⟩ | ⟨-, hexamine⟩
    · exact raiseFailure_endsInOutcome ..
    · exact examine_endsInOutcome hexamine hdone

/-- The byte that ends an invocation completes the frame or raises a failure. -/
theorem execRxByte_endsInOutcome (e : execRxByte b s = .next t) (hdone : t.rxState = .done) : EndsInOutcome t := by
  rcases execRxByte_next e with ⟨-, he⟩ | ⟨-, he⟩ | ⟨-, he⟩ | ⟨-, he⟩ | ⟨-, he⟩ | ⟨-, he⟩ | ⟨-, he⟩ | ⟨-, he⟩
  · exact examine_endsInOutcome he hdone
  · exact seekAddrByte_endsInOutcome he hdone
  · obtain rfl := hdrCmdByte_next he; cases hdone
  · obtain rfl := lenHiByte_next he; cases hdone
  · obtain ⟨-, rfl⟩ | ⟨-, rfl⟩ := lenLoByte_next he
    · exact raiseFailure_endsInOutcome ..
    · simp [ite_eq_iff] at hdone
  · obtain ⟨-, rfl⟩ := payloadByte_next he; simp [ite_eq_iff] at hdone
  · obtain rfl := chkHiByte_next he; cases hdone
  · obtain ⟨-, rfl⟩ | ⟨-, rfl⟩ := chkLoByte_next he
    · exact .inl ⟨rfl, rfl⟩
    · exact raiseFailure_endsInOutcome ..

/-- The operations of the other parts do not end an invocation, and `RX_START` is refused while one is running. -/
theorem exec_of_reading (hr : s.rxState.isReading = true) (e : exec i s = .next t) :
    (∃ a, i = sourceOp a) ∨ SameReader s t := by
  cases i with
  | txBegin _ | txPush _ | txEnd | csumClr | csumAdd _ => exact .inr (exec_sameReader (fun h => by cases h) e)
  | rxStart => rw [exec_rxStart_refused hr] at e; cases e
  | rxByte b => exact .inl ⟨.byte b, rfl⟩
  | rxUnderrun => exact .inl ⟨.underrun, rfl⟩
  | rxChfault c => exact .inl ⟨.chfault c, rfl⟩

/-! ### The running sum (41_response_reader.md R137) -/

theorem ScanInv.rxSum_eq (h : ScanInv s) (hq : s.rxState = .chkHi ∨ s.rxState = .chkLo) :
    s.rxSum = sum16 (scannedBody s) := by
  obtain ⟨-, -, -, -, -, -, hchkHi, hchkLo⟩ := h
  rcases hq with hq | hq
  · obtain ⟨hraw, hsum, -⟩ := hchkHi hq
    rw [hsum, hraw]
  · obtain ⟨-, hsum, -⟩ := hchkLo hq
    exact hsum

theorem sum16_toNat_eq_sumMod (xs : List Byte) : (sum16 xs).toNat = sumMod xs := sum16_toNat xs

/-! ### The bytes an invocation consumed (41_response_reader.md R138(d)) -/

/-- The frame under scan, or the accepted one, is the end of what the invocation took so far. A failure may leave any
part of a frame in `rx_raw`. -/
def RawEndsTaken (taken : List Byte) (s : State) : Prop :=
  s.rxStatus.isFailure = false → s.rxRaw <:+ taken

theorem rawEndsTaken_of_failure (h : s.rxStatus.isFailure = true) : RawEndsTaken taken s := by
  intro hok; rw [h] at hok; cases hok

/-- A byte that is appended to `rx_raw` as it is taken. -/
theorem rawEndsTaken_concat (h : s.rxRaw <:+ taken) (hraw : t.rxRaw = s.rxRaw ++ [b]) :
    RawEndsTaken (taken ++ [b]) t := by
  intro _
  rw [hraw]
  obtain ⟨noise, rfl⟩ := h
  exact ⟨noise, (List.append_assoc ..).symm⟩

theorem rawEndsTaken_nil (h : s.rxRaw = []) : RawEndsTaken taken s := fun _ => h ▸ List.nil_suffix

/-- An examination begins a frame with its byte or leaves `rx_raw` empty. -/
theorem examine_rawEndsTaken (hraw : s.rxRaw = []) (e : examine b s = .next t) : RawEndsTaken (taken ++ [b]) t := by
  obtain ⟨-, ⟨-, rfl⟩ | ⟨-, -, rfl⟩ | ⟨-, -, rfl⟩⟩ := examine_next e
  · exact fun _ => List.suffix_append ..
  · exact rawEndsTaken_of_failure rfl
  · exact rawEndsTaken_nil hraw

theorem seekAddrByte_rawEndsTaken (h : s.rxRaw <:+ taken) (e : seekAddrByte b s = .next t) :
    RawEndsTaken (taken ++ [b]) t := by
  rcases seekAddrByte_next e with ⟨-, rfl⟩ | ⟨-, -, rfl⟩ | ⟨-, -, he⟩
  · exact rawEndsTaken_concat h rfl
  · exact rawEndsTaken_of_failure rfl
  · rcases resyncByte_next he with ⟨-, rfl⟩ | ⟨-, hexamine⟩
    · exact rawEndsTaken_of_failure rfl
    · exact examine_rawEndsTaken (s := { s with rxRaw := [], rxSum := 0x0000#16 }) rfl hexamine

theorem execRxByte_keeps_rawEndsTaken (hreader : ReaderInv s) (h : RawEndsTaken taken s)
    (e : execRxByte b s = .next t) : RawEndsTaken (taken ++ [b]) t := by
  have hsuffix {q : RxState} (hq : s.rxState = q) (hr : q.isReading = true) : s.rxRaw <:+ taken :=
    h (by rw [(hreader.reading hq hr).busy]; rfl)
  rcases execRxByte_next e with ⟨hq, he⟩ | ⟨hq, he⟩ | ⟨hq, he⟩ | ⟨hq, he⟩ | ⟨hq, he⟩ | ⟨hq, he⟩ | ⟨hq, he⟩ | ⟨hq, he⟩
  · obtain ⟨-, hraw, -⟩ := (hreader.reading hq rfl).scan
    exact examine_rawEndsTaken hraw he
  · exact seekAddrByte_rawEndsTaken (hsuffix hq rfl) he
  · obtain rfl := hdrCmdByte_next he; exact rawEndsTaken_concat (hsuffix hq rfl) rfl
  · obtain rfl := lenHiByte_next he; exact rawEndsTaken_concat (hsuffix hq rfl) rfl
  · obtain ⟨-, rfl⟩ | ⟨-, rfl⟩ := lenLoByte_next he <;> exact rawEndsTaken_concat (hsuffix hq rfl) rfl
  · obtain ⟨-, rfl⟩ := payloadByte_next he; exact rawEndsTaken_concat (hsuffix hq rfl) rfl
  · obtain rfl := chkHiByte_next he; exact rawEndsTaken_concat (hsuffix hq rfl) rfl
  · obtain ⟨-, rfl⟩ | ⟨-, rfl⟩ := chkLoByte_next he <;> exact rawEndsTaken_concat (hsuffix hq rfl) rfl

theorem execRxStart_rxRaw (e : execRxStart s = .next t) : t.rxRaw = [] := by
  obtain ⟨-, ⟨-, rfl⟩ | ⟨-, rfl⟩⟩ := execRxStart_next e <;> rfl

/-- A whole invocation: `RX_START` and the bytes behind it (compare `invocationAccount_of_run`). -/
theorem rawEndsTaken_of_run {xs : List Byte} (hp : s.port = encode .rxStart :: (byteWords xs ++ rest))
    (h : runSteps (1 + xs.length) s = .next t) : RawEndsTaken xs t := by
  rw [Nat.add_comm] at h
  obtain ⟨v, hstart, hrun⟩ := runSteps_operation (i := .rxStart) hp h
  obtain ⟨⟨-, hport⟩, -⟩ := (execRxStart_readerOnly hstart).sameParts
  have hbegin : ReaderInv v ∧ RawEndsTaken [] v :=
    ⟨execRxStart_readerInv hstart, rawEndsTaken_nil (execRxStart_rxRaw hstart)⟩
  obtain ⟨⟨-, hraw⟩, -⟩ := runSteps_byteWords (P := fun taken s => ReaderInv s ∧ RawEndsTaken taken s)
    (fun _ _ s _ ws ⟨hreader, hraw⟩ e => ⟨execRxByte_keeps_readerInv (s := { s with port := ws }) hreader e,
      execRxByte_keeps_rawEndsTaken (s := { s with port := ws }) hreader hraw e⟩)
    xs hbegin hport hrun
  exact hraw

/-! ### Every answer brings the end nearer (41_response_reader.md R139) -/

/-- The most answers the reader can still take before its invocation ends: each unit of the budget one examination, one
byte more for the address, and behind it at most 65538 bytes of the frame. -/
def eventsLeft (s : State) : Nat :=
  match s.rxState with
  | .idle => 0
  | .seekSync => s.rxBudget.toNat + 1 + 65538
  | .seekAddr => s.rxBudget.toNat + 1 + 65538
  | .hdrCmd => 65538
  | .lenHi => 65537
  | .lenLo => 65536
  | .payload => s.rxRemaining.toNat + 2
  | .chkHi => 2
  | .chkLo => 1
  | .done => 0

theorem eventsLeft_pos (hr : s.rxState.isReading = true) : 0 < eventsLeft s := by
  unfold eventsLeft
  cases hq : s.rxState with
  | idle | done => rw [hq] at hr; cases hr
  | seekSync | seekAddr | hdrCmd | lenHi | lenLo | payload | chkHi | chkLo => dsimp only; omega

/-- The bound while the reader seeks. -/
theorem eventsLeft_of_seeking (hq : s.rxState = .seekSync ∨ s.rxState = .seekAddr) :
    eventsLeft s = s.rxBudget.toNat + 1 + 65538 := by
  rcases hq with hq | hq <;> simp only [eventsLeft, hq]

theorem not_reading_of_eventsLeft (h : eventsLeft s = 0) : s.rxState.isReading = false :=
  Bool.eq_false_iff.mpr fun hr => (eventsLeft_pos hr).ne' h

theorem eventsLeft_of_sameReader (h : SameReader s t) : eventsLeft t = eventsLeft s := by
  obtain ⟨hstate, -, hbudget, -, -, -, -, -, hrem, -⟩ := h
  rw [eventsLeft, hstate, hbudget, hrem, eventsLeft]

/-- One answer has been taken: fewer can follow, and the reader is not as after reset. -/
def Progress (s t : State) : Prop := eventsLeft t < eventsLeft s ∧ t.rxState ≠ .idle

theorem raiseFailure_progress {v : State} (k : Failure) (hr : s.rxState.isReading = true) :
    Progress s (raiseFailure k v) :=
  ⟨eventsLeft_pos hr, nofun⟩

theorem examine_progress (hq : s.rxState = .seekSync ∨ s.rxState = .seekAddr) (e : examine b s = .next t) :
    Progress s t := by
  have hspent := examine_budget e
  have hless (ht : t.rxState = .seekSync ∨ t.rxState = .seekAddr) : eventsLeft t < eventsLeft s := by
    rw [eventsLeft_of_seeking hq, eventsLeft_of_seeking ht]
    omega
  obtain ⟨-, ⟨-, rfl⟩ | ⟨-, -, rfl⟩ | ⟨-, -, rfl⟩⟩ := examine_next e
  · exact ⟨hless (.inr rfl), nofun⟩
  · exact raiseFailure_progress _ (by rcases hq with hq | hq <;> rw [hq] <;> rfl)
  · exact ⟨hless (.inl rfl), nofun⟩

theorem seekAddrByte_progress (hq : s.rxState = .seekAddr) (e : seekAddrByte b s = .next t) : Progress s t := by
  have hr : s.rxState.isReading = true := by rw [hq]; rfl
  rcases seekAddrByte_next e with ⟨-, rfl⟩ | ⟨-, -, rfl⟩ | ⟨-, -, he⟩
  · exact ⟨by simp only [eventsLeft, hq]; omega, nofun⟩
  · exact raiseFailure_progress _ hr
  · rcases resyncByte_next he with ⟨-, rfl⟩ | ⟨-, hexamine⟩
    · exact raiseFailure_progress _ hr
    · exact examine_progress (s := { s with rxRaw := [], rxSum := 0x0000#16 }) (.inr hq) hexamine

theorem lenLoByte_progress (hq : s.rxState = .lenLo) (e : lenLoByte b s = .next t) : Progress s t := by
  obtain ⟨-, rfl⟩ | ⟨hlong, rfl⟩ := lenLoByte_next e
  · exact raiseFailure_progress _ (by rw [hq]; rfl)
  · generalize joinBytes (hiByte s.rxLen) b = len at hlong
    have hrest : (len - 2#16).toNat + 2 < 65536 := by bv_omega
    by_cases htwo : len = 2#16
    · simp [Progress, eventsLeft, hq, htwo]
    · simpa [Progress, eventsLeft, hq, htwo] using hrest

theorem payloadByte_progress (hq : s.rxState = .payload) (e : payloadByte b s = .next t) : Progress s t := by
  obtain ⟨hpos, rfl⟩ := payloadByte_next e
  have hspent : (s.rxRemaining - 1#16).toNat < s.rxRemaining.toNat := by bv_omega
  by_cases hlast : s.rxRemaining - 1#16 = 0#16
  · have hone : 0 < s.rxRemaining.toNat := by omega
    simpa [Progress, eventsLeft, hq, hlast] using hone
  · simpa [Progress, eventsLeft, hq, hlast] using hspent

theorem execRxByte_progress (e : execRxByte b s = .next t) : Progress s t := by
  rcases execRxByte_next e with ⟨hq, he⟩ | ⟨hq, he⟩ | ⟨hq, he⟩ | ⟨hq, he⟩ | ⟨hq, he⟩ | ⟨hq, he⟩ | ⟨hq, he⟩ | ⟨hq, he⟩
  · exact examine_progress (.inl hq) he
  · exact seekAddrByte_progress hq he
  · obtain rfl := hdrCmdByte_next he; simp [Progress, eventsLeft, hq]
  · obtain rfl := lenHiByte_next he; simp [Progress, eventsLeft, hq]
  · exact lenLoByte_progress hq he
  · exact payloadByte_progress hq he
  · obtain rfl := chkHiByte_next he; simp [Progress, eventsLeft, hq]
  · have hr : s.rxState.isReading = true := by rw [hq]; rfl
    obtain ⟨-, rfl⟩ | ⟨-, rfl⟩ := chkLoByte_next he
    · exact ⟨eventsLeft_pos hr, nofun⟩
    · exact raiseFailure_progress _ hr

theorem exec_sourceOp_progress {a : SourceEvent} (e : exec (sourceOp a) s = .next t) : Progress s t := by
  cases a with
  | byte b => exact execRxByte_progress e
  | underrun => obtain ⟨hr, rfl⟩ := execRxUnderrun_next e; exact raiseFailure_progress _ hr
  | chfault c => obtain ⟨hr, rfl⟩ := execRxChfault_next e; exact raiseFailure_progress _ hr

/-- An invocation begins with `B + 1 + 65538` answers to go, or with none where the budget is 0. -/
theorem execRxStart_eventsLeft (e : execRxStart s = .next t) :
    eventsLeft t = eventBound s.cfg ∧ t.rxState ≠ .idle := by
  obtain ⟨-, ⟨hzero, rfl⟩ | ⟨hpos, rfl⟩⟩ := execRxStart_next e
  · simp [eventsLeft, eventBound, hzero]
  · simp [eventsLeft, eventBound, hpos]

/-! ### Answers one after another -/

/-- Where a request is outstanding the reader's invariant alone has every answer taken (compare
`exec_sourceOp_of_reading`). -/
theorem ReaderInv.answers (h : ReaderInv s) (hr : s.rxState.isReading = true) (a : SourceEvent) :
    ∃ t, exec (sourceOp a) s = .next t := by
  obtain ⟨hscan, -⟩ := h
  cases a with
  | byte b => exact exists_next_of_noFault (execRxByte_noFault hscan) (execRxByte_ne_refused hr)
  | underrun => exact ⟨_, exec_rxUnderrun hr⟩
  | chfault c => exact ⟨_, exec_rxChfault hr⟩

theorem exec_sourceOp_keeps_readerInv {a : SourceEvent} (h : ReaderInv s) (e : exec (sourceOp a) s = .next t) :
    ReaderInv t := by
  cases a with
  | byte b => exact execRxByte_keeps_readerInv h e
  | underrun => exact execRxUnderrun_keeps_readerInv h e
  | chfault c => exact execRxChfault_keeps_readerInv h e

/-- By induction on the answers: the reader has stopped, or the next one is taken and brings the end nearer. -/
theorem executes_answers_until_done (es : List SourceEvent) (h : ReaderInv s) (hidle : s.rxState ≠ .idle)
    (hleft : eventsLeft s ≤ es.length) :
    ∃ used left t, es = used ++ left ∧ Executes (used.map sourceOp) s t ∧ t.rxState = .done := by
  cases hr : s.rxState.isReading with
  | false => exact ⟨[], es, s, rfl, .nil s, eq_done_of_not_reading hidle (by simp [hr])⟩
  | true =>
    induction es generalizing s with
    | nil => exact absurd (not_reading_of_eventsLeft (Nat.le_zero.mp hleft)) (by simp [hr])
    | cons a es ih =>
      obtain ⟨v, e⟩ := h.answers hr a
      obtain ⟨hless, hv⟩ := exec_sourceOp_progress e
      cases hrv : v.rxState.isReading with
      | false => exact ⟨[a], es, v, rfl, .single e, eq_done_of_not_reading hv (by simp [hrv])⟩
      | true =>
        rw [List.length_cons] at hleft
        obtain ⟨used, left, t, rfl, hall, ht⟩ := ih (exec_sourceOp_keeps_readerInv h e) hv (by omega) hrv
        exact ⟨a :: used, left, t, rfl, .cons e hall, ht⟩

/-! ### Turns of the environment (70_reset_and_hazards.md R188) -/

theorem issuer_sourceOp (a : SourceEvent) : (sourceOp a).issuer = .byteSource := by
  cases a <;> rfl

/-- The answers are the byte source's operations (10_state.md R22(b)). -/
theorem isAnswer_operation (i : Instr) : (Turn.operation i).isAnswer = true ↔ ∃ a, i = sourceOp a := by
  constructor
  · intro h
    cases i with
    | rxByte b => exact ⟨.byte b, rfl⟩
    | rxUnderrun => exact ⟨.underrun, rfl⟩
    | rxChfault c => exact ⟨.chfault c, rfl⟩
    | txBegin _ | txPush _ | txEnd | csumClr | csumAdd _ | rxStart => cases h
  · rintro ⟨a, rfl⟩
    exact decide_eq_true (issuer_sourceOp a)

/-- What a turn offers is the operation that runs (30_encoding.md R79). -/
theorem takeTurn_operation (hp : s.port = []) (h : takeTurn (.operation i) s = .next t) : exec i s = .next t := by
  rcases takeTurn_next hp h with ⟨hw, -⟩ | ⟨i', j, hi, hd, e⟩ | ⟨hr, -⟩
  · cases hw
  · cases hi
    rw [decode_encode] at hd
    cases hd
    exact e
  · cases hr

theorem takeTurn_port (hp : s.port = []) (h : takeTurn u s = .next t) : t.port = [] := by
  rcases takeTurn_next hp h with ⟨-, rfl⟩ | ⟨-, j, -, -, e⟩ | ⟨-, rfl⟩
  · exact hp
  · obtain ⟨-, hport⟩ := exec_sameEnvironment e
    exact hport.trans hp
  · exact hp

/-- What a turn does to an invocation that is running: an answer brings its end nearer, a reset cuts it off, and any other
turn leaves it where it is. -/
theorem takeTurn_of_reading (hp : s.port = []) (hr : s.rxState.isReading = true) (h : takeTurn u s = .next t) :
    eventsLeft t + (if u.isAnswer then 1 else 0) ≤ eventsLeft s ∧ (u ≠ .reset → t.rxState ≠ .idle) := by
  have hidle : s.rxState ≠ .idle := by rintro hq; rw [hq] at hr; cases hr
  cases u with
  | wait =>
    rcases takeTurn_next hp h with ⟨-, rfl⟩ | ⟨i, j, hi, -⟩ | ⟨hu, -⟩
    · exact ⟨le_rfl, fun _ => hidle⟩
    · cases hi
    · cases hu
  | operation i =>
    have e := takeTurn_operation hp h
    rcases exec_of_reading hr e with ⟨a, rfl⟩ | hsame
    · obtain ⟨hless, ht⟩ := exec_sourceOp_progress e
      rw [if_pos ((isAnswer_operation _).mpr ⟨a, rfl⟩)]
      exact ⟨hless, fun _ => ht⟩
    · have hno : ¬ (Turn.operation i).isAnswer = true := by
        rw [isAnswer_operation]
        rintro ⟨a, rfl⟩
        obtain ⟨hless, -⟩ := exec_sourceOp_progress e
        exact hless.ne (eventsLeft_of_sameReader hsame)
      rw [if_neg hno]
      exact ⟨(eventsLeft_of_sameReader hsame).le, fun _ => hsame.left ▸ hidle⟩
  | reset => cases h; exact ⟨Nat.zero_le _, fun hne => absurd rfl hne⟩

end

section

variable {turns : Nat → Turn} {states : Nat → State} {n k : Nat}

theorem run_port (h : IsRun turns states) (m : Nat) : (states m).port = [] := by
  obtain ⟨hstart, hturn⟩ := h
  induction m with
  | zero => exact hstart
  | succ m ih => exact takeTurn_port ih (hturn m)

/-- While an invocation is running, the answers so far and those that can follow are together no more than at its
beginning. -/
theorem run_eventsLeft (h : IsRun turns states) (hr : ∀ j < k, (states (n + j)).rxState.isReading = true) :
    eventsLeft (states (n + k)) + answersIn turns n k ≤ eventsLeft (states n) := by
  induction k with
  | zero => exact le_rfl
  | succ k ih =>
    have hbefore := ih fun j hj => hr j (by omega)
    obtain ⟨hturn, -⟩ := takeTurn_of_reading (run_port h (n + k)) (hr k (by omega)) (h.right (n + k))
    rw [answersIn_succ, ← Nat.add_assoc n]
    omega

/-- With no reset a running invocation does not go back to `RX_IDLE`. -/
theorem run_ne_idle (h : IsRun turns states) (hn : (states n).rxState ≠ .idle)
    (hr : ∀ j < k, (states (n + j)).rxState.isReading = true) (hreset : ∀ j < k, turns (n + j) ≠ .reset) :
    (states (n + k)).rxState ≠ .idle := by
  cases k with
  | zero => exact hn
  | succ k =>
    obtain ⟨-, ht⟩ := takeTurn_of_reading (run_port h (n + k)) (hr k (by omega)) (h.right (n + k))
    exact ht (hreset k (by omega))

/-- A reader that never stops is answered as often as one likes: the byte source's duty, over and over. -/
theorem answersIn_unbounded (hfair : WeaklyFair turns states)
    (hr : ∀ k, (states (n + k)).rxState.isReading = true) (m : Nat) : ∃ k, m ≤ answersIn turns n k := by
  induction m with
  | zero => exact ⟨0, Nat.zero_le _⟩
  | succ m ih =>
    obtain ⟨k, hk⟩ := ih
    obtain ⟨j, hj, hanswer⟩ := hfair (n + k) fun j hj => by
      obtain ⟨d, rfl⟩ := Nat.exists_eq_add_of_le (show n ≤ j by omega)
      exact hr d
    obtain ⟨d, rfl⟩ := Nat.exists_eq_add_of_le hj
    have hmono : answersIn turns n k ≤ answersIn turns n (k + d) :=
      monotone_nat_of_le_succ (fun l => Nat.le_add_right _ _) (Nat.le_add_right k d)
    refine ⟨k + d + 1, ?_⟩
    rw [answersIn_succ, ← Nat.add_assoc, if_pos hanswer]
    omega

/-- So under weak fairness an invocation stops: it has only so many answers to go. -/
theorem exists_not_reading (h : IsRun turns states) (hfair : WeaklyFair turns states) (n : Nat) :
    ∃ k, (states (n + k)).rxState.isReading = false := by
  by_contra hnever
  have hr : ∀ k, (states (n + k)).rxState.isReading = true := by simpa using hnever
  obtain ⟨k, hk⟩ := answersIn_unbounded hfair hr (eventsLeft (states n) + 1)
  have hbound := run_eventsLeft h (k := k) fun j _ => hr j
  omega

end

/-! ### The obligations -/

/-- Settles O33: an answer of the byte source ends it, by accepting the frame or by a failure entry, and only
`RX_CHFAULT` enters with a code. -/
theorem invocationEndsInOutcome : Obligations.InvocationEndsInOutcome := by
  intro i s t hr e hdone
  rcases exec_of_reading hr e with ⟨a, rfl⟩ | ⟨hstate, -⟩
  · have hpart : partOf (sourceOp a) = .reader := by cases a <;> rfl
    obtain ⟨henv, hbuilder, hcsum⟩ := (exec_of_reader hpart e).sameParts
    refine ⟨hbuilder, hcsum, henv, ?_⟩
    cases a with
    | byte b =>
      obtain ⟨-, -, hcode, -⟩ := execRxByte_byteWrites e
      exact (execRxByte_endsInOutcome e hdone).imp (fun ⟨hok, hvalid⟩ => ⟨hok, hvalid, hcode⟩)
        fun ⟨hfail, hvalid⟩ => ⟨hfail, hvalid, .inl hcode⟩
    | underrun =>
      obtain ⟨-, rfl⟩ := execRxUnderrun_next e
      exact .inr ⟨rfl, rfl, .inl rfl⟩
    | chfault c =>
      obtain ⟨-, rfl⟩ := execRxChfault_next e
      exact .inr ⟨rfl, rfl, .inr ⟨rfl, rfl⟩⟩
  · rw [← hstate, hdone] at hr
    cases hr

/-- Settles O46: read off the full invariant. -/
theorem runningSumIsRecomputedChecksum : Obligations.RunningSumIsRecomputedChecksum := by
  intro cfg s hreach hq
  obtain ⟨-, hscan, -⟩ := hreach.framerInv
  rw [hscan.rxSum_eq hq]
  exact sum16_toNat_eq_sumMod (scannedBody s)

/-- Settles O47: the reader's invariant says what an accepted frame is, and `RawEndsTaken` where it stood in the stream. -/
theorem acceptedFrameIsWellFormed : Obligations.AcceptedFrameIsWellFormed := by
  intro s t xs rest _ hp hrun hok
  obtain ⟨⟨hcfg, ⟨-, houtcome, -, hpayload, hraw⟩, -⟩, hport⟩ := invocationAccount_of_run hp hrun
  obtain ⟨-, -, -, -, -, -, -, -, haccepted⟩ := houtcome
  obtain ⟨hframe, hchk, hlen⟩ := haccepted hok
  obtain ⟨noise, hnoise⟩ := rawEndsTaken_of_run hp hrun (by rw [hok]; rfl)
  have hbody := scannedBody_length t
  have htotal : t.rxRaw.length = (scannedBody t).length + 2 := by rw [hframe, List.length_append]; rfl
  have hsummed : t.rxRaw.take (t.rxRaw.length - 2) = scannedBody t := by
    rw [htotal, hframe]
    exact List.take_left
  refine ⟨?_, hlen, by omega, ?_, ⟨noise, hnoise.symm⟩, hport, hpayload, hraw⟩
  · rw [← hcfg]
    exact hframe
  · rw [hsummed, hchk, sum16_toNat_eq_sumMod]

/-- Settles O48: `RX_START` leaves the bound's number of answers to go, and every answer taken is one fewer. -/
theorem everyInvocationEnds : Obligations.EveryInvocationEnds := by
  intro s es rest h hlen hp
  obtain ⟨v, hstart⟩ : ∃ v, exec .rxStart s = .next v := by
    by_cases hb : s.cfg.maxResyncBytes = 0#32
    · exact ⟨_, exec_rxStart_noBudget h hb⟩
    · exact ⟨_, exec_rxStart h hb⟩
  obtain ⟨hleft, hidle⟩ := execRxStart_eventsLeft hstart
  obtain ⟨used, left, t, rfl, hall, hdone⟩ :=
    executes_answers_until_done es (execRxStart_readerInv hstart) hidle (by omega)
  have hwords : s.port = opWords (.rxStart :: used.map sourceOp) ++ (eventWords left ++ rest) := by
    rw [hp, eventWords, List.map_append, opWords_append, List.append_assoc]
    rfl
  have hrun := (Executes.cons hstart hall).runSteps_of_port hwords
  rw [List.length_cons, List.length_map, Nat.add_comm] at hrun
  exact ⟨used.length, _, by simp, hrun, hdone⟩

/-- Settles O49: weak fairness stops the reader (`exists_not_reading`), and the answers until the first state in which it
has stopped are counted by `run_eventsLeft`. -/
theorem fairInvocationEnds : Obligations.FairInvocationEnds := by
  intro turns states n hrun hfair hn
  have hstart : exec .rxStart (states n) = .next (states (n + 1)) :=
    takeTurn_operation (run_port hrun n) (hn ▸ hrun.right n)
  obtain ⟨hleft, hidle⟩ := execRxStart_eventsLeft hstart
  have hstops := exists_not_reading hrun hfair (n + 1)
  have hreads : ∀ j < Nat.find hstops, (states (n + 1 + j)).rxState.isReading = true :=
    fun j hj => by simpa using Nat.find_min hstops hj
  have hcount := run_eventsLeft hrun hreads
  refine ⟨Nat.find hstops, Nat.find_spec hstops, hreads, by omega, fun hreset => ?_⟩
  exact eq_done_of_not_reading (run_ne_idle hrun hidle hreads hreset) (by simp [Nat.find_spec hstops])

end Sys2Proof.Machine

/-! # Frames behind noise (41_response_reader.md R140 to R142)

The noise is taken byte by byte without a trace beside the budget, and the frame behind it as if it had come first; a
frame whose checksum field is not its sum is rejected; bytes with no sync byte among them spend the budget. -/

namespace Sys2Proof.Machine

open Sys2Proof.Claims

section

variable {s t : State} {b c y hi lo : Byte} {p noise f xs : List Byte} {j k : Nat}

/-! ### Noise before a frame -/

/-- `s` seeking a sync byte with the budget `k`, nothing of a frame scanned. -/
def seekingWith (k : Budget) (s : State) : State :=
  { s with rxBudget := k, rxRaw := [], rxSum := 0x0000#16, rxState := .seekSync }

/-- The byte `b`, if it comes next, is examined: the reader seeks, or `RESYNC` has it examine a mismatching address. -/
def ReadyToExamine (b : Byte) (s : State) : Prop :=
  s = seekingWith s.rxBudget s ∨
    s.rxState = .seekAddr ∧ s.cfg.addrPolicy = .resync ∧ b ≠ s.cfg.addrIn

/-- A byte that is examined does what it would with nothing scanned. -/
theorem ReadyToExamine.exec_eq (h : ReadyToExamine b s) (hbudget : s.rxBudget ≠ 0#32) :
    exec (.rxByte b) s = exec (.rxByte b) (seekingWith s.rxBudget s) := by
  rcases h with h | ⟨hq, hpolicy, hb⟩
  · rw [← h]
  · rw [exec_rxByte_seekAddr hq, seekAddrByte_resync hb hpolicy hbudget, exec_rxByte_seekSync rfl]
    rfl

/-- `s` after an examined byte: behind a sync byte the address is expected, behind another the reader goes on seeking. -/
def examined (b : Byte) (s : State) : State :=
  if b = s.cfg.syncIn then
    { s with
      rxBudget := s.rxBudget - 1#32
      rxRaw := [s.cfg.syncIn]
      rxSum := zext16 s.cfg.syncIn
      rxState := .seekAddr }
  else seekingWith (s.rxBudget - 1#32) s

theorem examined_cfg (b : Byte) (s : State) : (examined b s).cfg = s.cfg := by
  unfold examined; split <;> rfl

theorem examined_rxBudget (b : Byte) (s : State) : (examined b s).rxBudget = s.rxBudget - 1#32 := by
  unfold examined; split <;> rfl

theorem seekingWith_examined (k : Budget) (b : Byte) (s : State) :
    seekingWith k (examined b s) = seekingWith k s := by
  unfold examined; split <;> rfl

/-- With budget to spare an examined byte does not end the invocation. -/
theorem ReadyToExamine.exec_rxByte (h : ReadyToExamine b s) (hbudget : 2 ≤ s.rxBudget.toNat) :
    exec (.rxByte b) s = .next (examined b s) := by
  have hpos : (seekingWith s.rxBudget s).rxBudget ≠ 0#32 := budget_ne_zero (by simp only [seekingWith]; omega)
  have hleft : (seekingWith s.rxBudget s).rxBudget - 1#32 ≠ 0#32 := by simp only [seekingWith]; bv_omega
  rw [h.exec_eq hpos, exec_rxByte_seekSync rfl, examined]
  split
  case isTrue hb => subst hb; exact examine_sync hpos
  case isFalse hb => exact examine_skip hpos hb hleft

/-- The pairs of neighbours that noise may have: a sync byte only where `RESYNC` examines what follows it
(41_response_reader.md R140(b)). -/
def NoisePair (cfg : Config) (a b : Byte) : Prop :=
  a = cfg.syncIn → cfg.addrPolicy = .resync ∧ b ≠ cfg.addrIn

theorem readyToExamine_examined (h : NoisePair s.cfg b y) : ReadyToExamine y (examined b s) := by
  unfold examined
  split
  case isTrue hb => exact .inr ⟨rfl, h hb⟩
  case isFalse => exact .inl rfl

/-- The noise leaves no trace beside the budget: what the bytes `y :: f` do to a reader that seeks, they do behind it. -/
theorem executes_behind_noise (hready : ∀ b ∈ (noise ++ [y]).head?, ReadyToExamine b s)
    (hpairs : (noise ++ [y]).IsChain (NoisePair s.cfg)) (hbudget : noise.length + 1 ≤ s.rxBudget.toNat)
    (h : Executes ((y :: f).map .rxByte) (seekingWith (s.rxBudget - BitVec.ofNat 32 noise.length) s) t) :
    Executes ((noise ++ y :: f).map .rxByte) s t := by
  induction noise generalizing s with
  | nil =>
    have hy : ReadyToExamine y s := hready y rfl
    have hpos : s.rxBudget ≠ 0#32 := budget_ne_zero (by simpa using hbudget)
    have hsame : s.rxBudget - BitVec.ofNat 32 ([] : List Byte).length = s.rxBudget := BitVec.sub_zero _
    rw [hsame] at h
    cases h with
    | cons first others => exact .cons ((hy.exec_eq hpos).trans first) others
  | cons b noise ih =>
    rw [List.cons_append, List.isChain_cons] at hpairs
    obtain ⟨hpair, hpairs⟩ := hpairs
    rw [List.length_cons] at hbudget
    have hfirst : ReadyToExamine b s := hready b rfl
    have hspent : (s.rxBudget - 1#32).toNat + 1 = s.rxBudget.toNat := by bv_omega
    have hcount : s.rxBudget - 1#32 - BitVec.ofNat 32 noise.length =
        s.rxBudget - BitVec.ofNat 32 (b :: noise).length := by
      rw [List.length_cons, BitVec.ofNat_add, BitVec.add_comm, ← BitVec.sub_sub]
    refine .cons (hfirst.exec_rxByte (by omega)) (ih ?_ ?_ ?_ ?_)
    · exact fun z hz => readyToExamine_examined (hpair z hz)
    · rwa [examined_cfg]
    · rw [examined_rxBudget]; omega
    · rwa [examined_rxBudget, seekingWith_examined, hcount]

/-- The conditions of R140(b) as neighbouring pairs, the frame's sync byte the last of them. -/
theorem noisePairs {cfg : Config} {f rest : List Byte} (h : NoiseTolerated cfg noise (cfg.syncIn :: f) rest) :
    (noise ++ [cfg.syncIn]).IsChain (NoisePair cfg) := by
  obtain ⟨-, hfast, hresync⟩ := h
  rw [List.isChain_iff_getElem]
  intro i hi hsync
  have hlt : i < noise.length := by simpa using hi
  cases hpolicy : cfg.addrPolicy with
  | failFast =>
    rw [List.getElem_append_left hlt] at hsync
    exact absurd (hsync ▸ List.getElem_mem hlt) (hfast hpolicy)
  | resync =>
    refine ⟨rfl, fun haddr => hresync hpolicy i hlt ?_⟩
    have hstream : noise ++ cfg.syncIn :: f ++ rest = noise ++ [cfg.syncIn] ++ (f ++ rest) := by simp
    have hi' : i < (noise ++ [cfg.syncIn]).length := by omega
    rw [hstream, List.getElem?_append_left hi', List.getElem?_append_left hi, List.getElem?_eq_getElem hi',
      List.getElem?_eq_getElem hi]
    exact ⟨congrArg some hsync, congrArg some haddr⟩

/-- `s` after `RX_START`, with budget to seek with (41_response_reader.md R122). -/
def started (s : State) : State := { clearReader s with rxState := .seekSync, rxStatus := .busy }

/-- `s` after `RX_START` and `n` bytes that were examined and left no frame under scan. -/
def startedBehind (n : Nat) (s : State) : State :=
  seekingWith (s.cfg.maxResyncBytes - BitVec.ofNat 32 n) (started s)

/-- Tolerated noise leaves at least one unit of the budget (41_response_reader.md R140(a)). -/
theorem budget_startedBehind {rest : List Byte} (h : NoiseTolerated s.cfg noise f rest) :
    (startedBehind noise.length s).rxBudget.toNat + noise.length = s.cfg.maxResyncBytes.toNat ∧
      (startedBehind noise.length s).rxBudget ≠ 0#32 := by
  obtain ⟨hbudget, -⟩ := h
  simp only [startedBehind, seekingWith]
  exact ⟨by bv_omega, by bv_omega⟩

/-- A whole invocation over noise and what begins with a sync byte behind it, the noise taken out. -/
theorem runSteps_behind_noise {rest : List Byte} (h : s.rxState = .idle ∨ s.rxState = .done)
    (hsync : f.head? = some s.cfg.syncIn) (hnoise : NoiseTolerated s.cfg noise f rest)
    (hp : s.port = encode .rxStart :: byteWords (noise ++ f ++ rest))
    (hf : Executes (f.map .rxByte) (startedBehind noise.length s) t) :
    runSteps (1 + (noise.length + f.length)) s = .next { t with port := byteWords rest } := by
  obtain ⟨f, rfl⟩ := List.head?_eq_some_iff.mp hsync
  have hpairs := noisePairs hnoise
  obtain ⟨hbudget, -⟩ := hnoise
  have hstart := exec_rxStart h (budget_ne_zero (by omega))
  have hbytes : Executes ((noise ++ s.cfg.syncIn :: f).map .rxByte) (started s) t :=
    executes_behind_noise (s := started s) (fun _ _ => .inl rfl) hpairs hbudget hf
  have hwords : s.port = opWords (.rxStart :: (noise ++ s.cfg.syncIn :: f).map .rxByte) ++ byteWords rest := by
    rw [hp, byteWords, List.map_append, opWords_append]
    rfl
  have hrun := (Executes.cons hstart hbytes).runSteps_of_port hwords
  rwa [List.length_cons, List.length_map, List.length_append, Nat.add_comm] at hrun

/-! ### A frame with another checksum field (41_response_reader.md R134, R141) -/

/-- `s` after the checksummed bytes of a frame with the command code `c` and the payload `p`. -/
def bodyTaken (c : Byte) (p : List Byte) (s : State) : State :=
  payloadTaken p (headTaken c (lengthField p.length) s)

theorem executes_frameBody (hstate : s.rxState = .seekSync) (hbudget : s.rxBudget ≠ 0#32)
    (hp : p.length ≤ maxPayload) :
    Executes ((frameBody s.cfg.syncIn s.cfg.addrIn c p).map .rxByte) s (bodyTaken c p s) := by
  have hlen := lengthField_toNat hp
  have hhead := executes_head (c := c) hstate hbudget (by omega : 2 ≤ (lengthField p.length).toNat)
  have hrem : (headTaken c (lengthField p.length) s).rxRemaining.toNat = p.length := by
    simp only [headTaken]; bv_omega
  have hzero : lengthField p.length = 2#16 ↔ lengthField p.length - 2#16 = 0#16 := by bv_omega
  rw [frameBody_eq_append, List.map_append]
  exact hhead.append (executes_payload (by simp [headTaken, hzero]) hrem)

theorem bodyTaken_rxSum (c : Byte) (p : List Byte) (s : State) :
    (bodyTaken c p s).rxSum = sum16 (frameBody s.cfg.syncIn s.cfg.addrIn c p) :=
  (sum16_append _ _).symm

/-- `s` with the frame under scan rejected on the checksum field `hi`, `lo`. -/
def checksumRejected (hi lo : Byte) (s : State) : State :=
  raiseFailure .checksumMismatch { s with
    rxRaw := s.rxRaw ++ [hi] ++ [lo]
    rxChkHi := hi
    rxChk := joinBytes hi lo
    rxState := .chkLo }

theorem executes_wrong_checksum (hstate : s.rxState = .chkHi) (hsum : joinBytes hi lo ≠ s.rxSum) :
    Executes ([hi, lo].map .rxByte) s (checksumRejected hi lo s) :=
  .cons (exec_rxByte_chkHi hstate) (.single (exec_rxByte_chkLo_mismatch rfl hsum))

/-! ### Flipping one bit (41_response_reader.md R141) -/

/-- The byte `b` with bit `k` flipped. -/
def flipBitOf (k : Nat) (b : Byte) : Byte := b ^^^ BitVec.ofNat 8 (2 ^ k)

theorem flipBitOf_ne (hk : k < 8) (b : Byte) : flipBitOf k b ≠ b := by
  have hbit : ∀ k < 8, BitVec.ofNat 8 (2 ^ k) ≠ 0#8 := by decide
  intro h
  have hzero : b ^^^ BitVec.ofNat 8 (2 ^ k) = b ^^^ 0#8 := by rwa [BitVec.xor_zero]
  exact hbit k hk ((BitVec.xor_right_inj b).mp hzero)

theorem zext16_inj {a b : Byte} (h : zext16 a = zext16 b) : a = b :=
  BitVec.eq_of_toNat_eq (by rw [← zext16_toNat a, h, zext16_toNat])

/-- A flipped bit changes the sum: all other bytes add the same to it. -/
theorem sum16_flipBit_ne (hk : k < 8) (hj : j < xs.length) : sum16 (flipBit xs j k) ≠ sum16 xs := by
  have hsplit : xs = xs.take j ++ xs[j] :: xs.drop (j + 1) := by simp
  have hflip : flipBit xs j k = xs.take j ++ flipBitOf k xs[j] :: xs.drop (j + 1) :=
    List.modify_eq_take_cons_drop hj
  intro h
  rw [hflip] at h
  conv_rhs at h => rw [hsplit]
  rw [sum16_append, sum16_append, sum16_cons, sum16_cons] at h
  exact flipBitOf_ne hk _ (zext16_inj ((BitVec.add_left_inj _).mp ((BitVec.add_right_inj _).mp h)))

theorem flipBit_length (xs : List Byte) (j k : Nat) : (flipBit xs j k).length = xs.length :=
  List.length_modify ..

theorem flipBit_cons_succ (x : Byte) (xs : List Byte) (j k : Nat) :
    flipBit (x :: xs) (j + 1) k = x :: flipBit xs j k := rfl

theorem flipBit_append_left (ys : List Byte) (hj : j < xs.length) :
    flipBit (xs ++ ys) j k = flipBit xs j k ++ ys := by
  induction xs generalizing j with
  | nil => cases hj
  | cons x xs ih =>
    cases j with
    | zero => rfl
    | succ j => rw [List.cons_append, flipBit_cons_succ, flipBit_cons_succ, ih (Nat.lt_of_succ_lt_succ hj)]; rfl

theorem flipBit_append_right (xs ys : List Byte) (i k : Nat) :
    flipBit (xs ++ ys) (xs.length + i) k = xs ++ flipBit ys i k := by
  induction xs with
  | nil => rw [List.length_nil, Nat.zero_add]; rfl
  | cons x xs ih => rw [List.length_cons, Nat.add_right_comm, List.cons_append, flipBit_cons_succ, ih]; rfl

/-- A flip in the command code or the payload leaves head and payload with the same length field. -/
theorem flipBit_frameBody (sync addr c : Byte) (p : List Byte) (k : Nat) (hj : j = 2 ∨ 5 ≤ j) :
    ∃ c' p', p'.length = p.length ∧ flipBit (frameBody sync addr c p) j k = frameBody sync addr c' p' := by
  rcases hj with rfl | hj
  · exact ⟨flipBitOf k c, p, rfl, rfl⟩
  · obtain ⟨i, rfl⟩ := Nat.exists_eq_add_of_le hj
    have hlen := flipBit_length p i k
    refine ⟨c, flipBit p i k, hlen, ?_⟩
    rw [frameBody, frameBody, hlen]
    exact flipBit_append_right [sync, addr, c, hiByte (lengthField p.length), loByte (lengthField p.length)] p i k

/-- A flipped frame is read like a frame whose checksum field is not its sum: a flip before the field changes the sum, one
in the field changes the value read. -/
theorem flipBit_frame (sync addr c : Byte) (p : List Byte) (hk : k < 8) (hj : j = 2 ∨ 5 ≤ j)
    (hlt : j < (frame sync addr c p).length) :
    ∃ c' p' hi lo, p'.length = p.length ∧ flipBit (frame sync addr c p) j k = frameBody sync addr c' p' ++ [hi, lo] ∧
      joinBytes hi lo ≠ sum16 (frameBody sync addr c' p') := by
  rw [frame, withChecksum] at hlt ⊢
  generalize hchk : sum16 (frameBody sync addr c p) = chk at hlt ⊢
  by_cases hbody : j < (frameBody sync addr c p).length
  · obtain ⟨c', p', hlen, hflip⟩ := flipBit_frameBody sync addr c p k hj
    refine ⟨c', p', hiByte chk, loByte chk, hlen, ?_, ?_⟩
    · rw [flipBit_append_left _ hbody, hflip]
    · rw [joinBytes_bytes, ← hchk, ← hflip]
      exact (sum16_flipBit_ne hk hbody).symm
  · obtain ⟨i, rfl⟩ := Nat.exists_eq_add_of_le (Nat.le_of_not_lt hbody)
    have hfield : i < 2 := by simpa using hlt
    rw [flipBit_append_right]
    interval_cases i
    · refine ⟨c, p, flipBitOf k (hiByte chk), loByte chk, rfl, rfl, fun h => ?_⟩
      exact flipBitOf_ne hk (hiByte chk) (by rw [← hiByte_joinBytes (flipBitOf k (hiByte chk)) (loByte chk), h, hchk])
    · refine ⟨c, p, hiByte chk, flipBitOf k (loByte chk), rfl, rfl, fun h => ?_⟩
      exact flipBitOf_ne hk (loByte chk) (by rw [← loByte_joinBytes (hiByte chk) (flipBitOf k (loByte chk)), h, hchk])

/-! ### No sync byte (41_response_reader.md R142) -/

/-- Bytes none of which is a sync byte are examined one by one, and with budget left the reader goes on seeking. -/
theorem executes_unsynced (hstate : s.rxState = .seekSync) (hsync : s.cfg.syncIn ∉ xs)
    (hlen : xs.length < s.rxBudget.toNat) :
    Executes (xs.map .rxByte) s { s with rxBudget := s.rxBudget - BitVec.ofNat 32 xs.length } := by
  induction xs generalizing s with
  | nil =>
    rw [List.length_nil, BitVec.sub_zero]
    exact .nil s
  | cons b xs ih =>
    rw [List.length_cons] at hlen
    obtain ⟨hb, hsync⟩ : s.cfg.syncIn ≠ b ∧ s.cfg.syncIn ∉ xs := by simpa using hsync
    have hspent : (s.rxBudget - 1#32).toNat + 1 = s.rxBudget.toNat := by bv_omega
    have hfirst : exec (.rxByte b) s = .next { s with rxBudget := s.rxBudget - 1#32 } := by
      rw [exec_rxByte_seekSync hstate, examine_skip (by bv_omega) hb.symm (by bv_omega), ← hstate]
    have hothers := ih (s := { s with rxBudget := s.rxBudget - 1#32 }) hstate hsync (by dsimp only; omega)
    rw [List.length_cons, BitVec.ofNat_add, BitVec.add_comm, ← BitVec.sub_sub]
    exact .cons hfirst hothers

/-- The same behind `RX_START`. -/
theorem executes_unsynced_invocation (h : s.rxState = .idle ∨ s.rxState = .done) (hsync : s.cfg.syncIn ∉ xs)
    (hlen : xs.length < s.cfg.maxResyncBytes.toNat) :
    Executes (.rxStart :: xs.map .rxByte) s
      { started s with rxBudget := s.cfg.maxResyncBytes - BitVec.ofNat 32 xs.length } :=
  .cons (exec_rxStart h (budget_ne_zero (by omega))) (executes_unsynced (s := started s) rfl hsync hlen)

/-- The whole budget spent on such bytes ends the invocation, with a budget of 0 as soon as it starts. -/
theorem executes_unsynced_exhausting (h : s.rxState = .idle ∨ s.rxState = .done) (hsync : s.cfg.syncIn ∉ xs)
    (hlen : xs.length = s.cfg.maxResyncBytes.toNat) :
    ∃ v, Executes (.rxStart :: xs.map .rxByte) s (raiseFailure .noFrame v) := by
  cases xs using List.reverseRecOn with
  | nil =>
    have hzero : s.cfg.maxResyncBytes = 0#32 := BitVec.eq_of_toNat_eq hlen.symm
    exact ⟨clearReader s, .single (exec_rxStart_noBudget h hzero)⟩
  | append_singleton xs b =>
    rw [List.length_append, List.length_singleton] at hlen
    obtain ⟨hsync, hb⟩ : s.cfg.syncIn ∉ xs ∧ s.cfg.syncIn ≠ b := by simpa using hsync
    have hone : s.cfg.maxResyncBytes - BitVec.ofNat 32 xs.length = 1#32 := by bv_omega
    have hbefore := executes_unsynced_invocation h hsync (by omega)
    have hunit : (1#32) ≠ 0#32 := by decide
    rw [hone] at hbefore
    have hlast := examine_last (s := { started s with rxBudget := 1#32 }) hunit hb.symm (BitVec.sub_self _)
    rw [List.map_append]
    exact ⟨_, hbefore.append (.single hlast)⟩

/-- The words of `RX_START` and the bytes behind it. -/
theorem opWords_invocation (xs : List Byte) :
    opWords (.rxStart :: xs.map .rxByte) = encode .rxStart :: byteWords xs := rfl

theorem length_invocation (xs : List Byte) : (Instr.rxStart :: xs.map .rxByte).length = 1 + xs.length := by
  rw [List.length_cons, List.length_map, Nat.add_comm]

end

/-! ### The obligations -/

/-- Settles O50: the frame behind the noise is taken whole, with one unit of the budget for each byte of the noise and one
for the sync byte. -/
theorem resyncOverNoise : Obligations.ResyncOverNoise := by
  rintro s noise f rest h ⟨c, p, hp, rfl⟩ hnoise hport
  rw [← frame_eq_buildCommand] at *
  obtain ⟨hspent, hbudget⟩ := budget_startedBehind hnoise
  have hread := executes_frame (s := startedBehind noise.length s) (c := c) rfl hbudget hp
  have hrun := runSteps_behind_noise h rfl hnoise hport hread
  refine ⟨_, hrun, rfl, rfl, rfl, frameTaken_rxRaw .., rfl, ?_⟩
  have hsync : ((startedBehind noise.length s).rxBudget - 1#32).toNat + noise.length + 1 =
      s.cfg.maxResyncBytes.toNat := by bv_omega
  exact hsync

/-- Settles O51: the flipped frame is one with a wrong checksum field (`flipBit_frame`), which the reader rejects. -/
theorem flippedBitIsRejected : Obligations.FlippedBitIsRejected := by
  rintro s noise f rest j k h ⟨c, p, hp, rfl⟩ hj hlt hk hnoise hport
  rw [← frame_eq_buildCommand] at *
  obtain ⟨c', p', hi, lo, hlen, hflip, hsum⟩ := flipBit_frame s.cfg.syncIn s.cfg.addrIn c p hk hj hlt
  rw [← flipBit_length (frame s.cfg.syncIn s.cfg.addrIn c p) j k]
  rw [hflip] at hnoise hport ⊢
  obtain ⟨-, hbudget⟩ := budget_startedBehind hnoise
  have hbody := executes_frameBody (s := startedBehind noise.length s) (c := c') rfl hbudget (hlen ▸ hp)
  have hread := hbody.append (executes_wrong_checksum (hi := hi) (lo := lo) rfl (by rwa [bodyTaken_rxSum]))
  rw [← List.map_append] at hread
  exact ⟨_, runSteps_behind_noise h rfl hnoise hport hread, rfl, rfl, rfl, rfl⟩

/-- Settles O52: byte by byte the budget goes down; its last unit ends the invocation, and so does an underrun before. -/
theorem budgetExhaustionEndsNoFrame : Obligations.BudgetExhaustionEndsNoFrame := by
  intro s xs rest h hsync
  refine ⟨fun hlen hport => ⟨?ends, fun k hk => ?notBefore⟩, fun hlen hport => ?underrun⟩
  case ends =>
    obtain ⟨v, hall⟩ := executes_unsynced_exhausting h hsync hlen
    have hrun := hall.runSteps_of_port hport
    rw [length_invocation] at hrun
    exact ⟨_, hrun, rfl, rfl, rfl⟩
  case notBefore =>
    have htake : (xs.take k).length = k := List.length_take_of_le hk.le
    have hsome := executes_unsynced_invocation h (fun hmem => hsync (List.mem_of_mem_take hmem))
      (xs := xs.take k) (by omega)
    have hwords : s.port = opWords (.rxStart :: (xs.take k).map .rxByte) ++ (byteWords (xs.drop k) ++ rest) := by
      conv_lhs => rw [hport, ← List.take_append_drop k xs, byteWords, List.map_append, opWords_append]
      rw [opWords_invocation, List.cons_append, ← List.append_assoc]
      rfl
    have hrun := hsome.runSteps_of_port hwords
    rw [length_invocation, htake] at hrun
    exact ⟨_, hrun, rfl⟩
  case underrun =>
    have hseeks := executes_unsynced_invocation h hsync hlen
    have hall := hseeks.append (.single (exec_rxUnderrun rfl))
    have hwords : s.port = opWords (.rxStart :: xs.map .rxByte ++ [.rxUnderrun]) ++ rest := by
      rw [hport, opWords_append, opWords_invocation, List.append_assoc]
      rfl
    have hrun := hall.runSteps_of_port hwords
    rw [List.length_append, length_invocation] at hrun
    exact ⟨_, hrun, rfl, rfl, rfl⟩

end Sys2Proof.Machine

/-! # The exceptions family (60_exceptions.md)

Which operations are refused and by which reason, what leaves `RX_DONE`, the priorities inside one operation, and how the
host sees the end of an invocation. -/

namespace Sys2Proof.Machine

section

variable {s : State} {b c : Byte} {i : Instr} {r : Refusal}

/-! ### The operations of the reader -/

theorem isReading_eq_false_iff : s.rxState.isReading = false ↔ s.rxState = .idle ∨ s.rxState = .done := by
  refine ⟨fun hr => ?_, isReading_eq_false⟩
  by_cases hidle : s.rxState = .idle
  · exact .inl hidle
  · exact .inr (eq_done_of_not_reading hidle (by simp [hr]))

theorem eq_rxStart_or_sourceOp (hp : partOf i = .reader) : i = .rxStart ∨ ∃ e, i = sourceOp e := by
  cases i with
  | rxStart => exact .inl rfl
  | rxByte b => exact .inr ⟨.byte b, rfl⟩
  | rxUnderrun => exact .inr ⟨.underrun, rfl⟩
  | rxChfault c => exact .inr ⟨.chfault c, rfl⟩
  | txBegin _ | txPush _ | txEnd | csumClr | csumAdd _ => cases hp

/-- `RX_START` completes wherever no invocation is running, whatever the budget (41_response_reader.md R122). -/
theorem exists_next_exec_rxStart (h : s.rxState = .idle ∨ s.rxState = .done) : ∃ t, exec .rxStart s = .next t := by
  by_cases hb : s.cfg.maxResyncBytes = 0#32
  · exact ⟨_, exec_rxStart_noBudget h hb⟩
  · exact ⟨_, exec_rxStart h hb⟩

/-! ### The refusals, operation by operation (60_exceptions.md R170) -/

theorem exec_txBegin_eq_refused_iff :
    exec (.txBegin c) s = .refused r ↔ s.txState = .build ∧ r = .txBeginWhileBuilding := by
  cases hq : s.txState with
  | idle => simp [exec_txBegin hq]
  | build => simp [exec_txBegin_refused hq, eq_comm]

theorem exec_txPush_eq_refused_iff : exec (.txPush b) s = .refused r ↔
    (s.txState = .idle ∧ r = .txPushWhileIdle) ∨
      (s.txState = .build ∧ maxPayload ≤ s.txPayload.length ∧ r = .txPayloadFull) := by
  cases hq : s.txState with
  | idle => simp [exec_txPush_refused_idle hq, eq_comm]
  | build =>
    by_cases hroom : s.txPayload.length < maxPayload
    · simp [exec_txPush hq hroom, Nat.not_le.mpr hroom]
    · have hfull := Nat.le_of_not_lt hroom
      simp [exec_txPush_refused_full hq hfull, hfull, eq_comm]

/-- In `TX_BUILD` it completes, or faults over the payload's capacity; neither is a refusal. -/
theorem exec_txEnd_eq_refused_iff : exec .txEnd s = .refused r ↔ s.txState = .idle ∧ r = .txEndWhileIdle := by
  cases hq : s.txState with
  | idle => simp [exec_txEnd_refused hq, eq_comm]
  | build => simp [exec, execTxEnd, hq, ite_eq_iff]

theorem exec_rxStart_eq_refused_iff :
    exec .rxStart s = .refused r ↔ s.rxState.isReading = true ∧ r = .rxStartWhileBusy := by
  cases hr : s.rxState.isReading with
  | false =>
    obtain ⟨t, ht⟩ := exists_next_exec_rxStart (isReading_eq_false_iff.mp hr)
    simp [ht]
  | true => simp [exec_rxStart_refused hr, eq_comm]

theorem exec_sourceOp_ne_refused (e : SourceEvent) (hr : s.rxState.isReading = true) :
    exec (sourceOp e) s ≠ .refused r := by
  cases e with
  | byte b => exact execRxByte_ne_refused hr r
  | underrun => simp [sourceOp, exec_rxUnderrun hr]
  | chfault c => simp [sourceOp, exec_rxChfault hr]

/-- The byte source's three operations share one row of the table. -/
theorem exec_sourceOp_eq_refused_iff (e : SourceEvent) : exec (sourceOp e) s = .refused r ↔
    (s.rxState = .idle ∨ s.rxState = .done) ∧ r = .rxEventNotReading := by
  rw [← isReading_eq_false_iff]
  cases hr : s.rxState.isReading with
  | false => simp [exec_sourceOp_refused e (isReading_eq_false_iff.mp hr), eq_comm]
  | true => simp [exec_sourceOp_ne_refused e hr]

/-! ### The end of an invocation (60_exceptions.md R173) -/

theorem invocationEnded_iff : invocationEnded s = true ↔ s.rxStatus ≠ .none ∧ s.rxStatus ≠ .busy := by
  simp [invocationEnded]

theorem OutcomeInv.invocationEnded_iff_done (h : OutcomeInv s) : invocationEnded s = true ↔ s.rxState = .done := by
  rw [invocationEnded_iff]
  refine ⟨fun ⟨hnone, hbusy⟩ => h.rxState_eq_done hnone hbusy, fun hdone => ?_⟩
  obtain ⟨hreads, hidle, -⟩ := h
  exact ⟨by simp [hidle, hdone], by simp [hreads, hdone, RxState.isReading]⟩

/-- The checksum's low byte ends the invocation either way (60_exceptions.md R172(d)). -/
theorem exec_rxByte_chkLo_ends (b : Byte) (hq : s.rxState = .chkLo) :
    ∃ t, exec (.rxByte b) s = .next t ∧ t.rxState = .done ∧ (t.rxStatus = .ok ∨ t.rxStatus = .checksumMismatch) := by
  by_cases hsum : joinBytes s.rxChkHi b = s.rxSum
  · exact ⟨_, exec_rxByte_chkLo_match hq hsum, rfl, .inl rfl⟩
  · exact ⟨_, exec_rxByte_chkLo_mismatch hq hsum, rfl, .inr rfl⟩

end

/-! ### The obligations -/

/-- Settles O34: the byte source's operations are refused there, and those of the other parts write no reader field. -/
theorem onlyRxStartLeavesDone : Obligations.OnlyRxStartLeavesDone := by
  intro i s t h e hne
  by_cases hp : partOf i = .reader
  · obtain hstart | ⟨a, rfl⟩ := eq_rxStart_or_sourceOp hp
    · exact absurd hstart hne
    · rw [exec_sourceOp_refused a h.symm] at e
      cases e
  · exact exec_sameReader hp e

/-- Settles O35: each operation's own rows are its `_eq_refused_iff`; under the premise a payload at the capacity is one
of exactly 65533 bytes. -/
theorem refusalsAreTheTable : Obligations.RefusalsAreTheTable := by
  intro i s r hlen
  cases i with
  | txBegin c => simp [exec_txBegin_eq_refused_iff]
  | txPush b =>
    have hfull : maxPayload ≤ s.txPayload.length ↔ s.txPayload.length = 65533 := hlen.ge_iff_eq
    simp [exec_txPush_eq_refused_iff, hfull]
  | txEnd => simp [exec_txEnd_eq_refused_iff]
  | csumClr | csumAdd b => simp [exec, execCsumClr, execCsumAdd]
  | rxStart => simp [exec_rxStart_eq_refused_iff]
  | rxByte b => simpa [sourceOp] using exec_sourceOp_eq_refused_iff (.byte b)
  | rxUnderrun => simpa [sourceOp] using exec_sourceOp_eq_refused_iff .underrun
  | rxChfault c => simpa [sourceOp] using exec_sourceOp_eq_refused_iff (.chfault c)

/-- Settles O58: in every reachable state the outcome registers agree with `rx_state`. -/
theorem pollingSeesTheEnd : Obligations.PollingSeesTheEnd := by
  intro cfg s hreach
  obtain ⟨-, -, houtcome, -⟩ := hreach.framerInv
  exact houtcome.invocationEnded_iff_done

/-- Settles O32: in each case one equation of the rule gives the next state. -/
theorem priorityInsideOneOperation : Obligations.PriorityInsideOneOperation := by
  intro b s
  refine ⟨?syncOnLastUnit, ?resyncWithoutBudget, ?lengthFirst, exec_rxByte_chkLo_ends b, ?startWithoutBudget⟩
  case syncOnLastUnit =>
    rintro hq rfl hone
    exact ⟨_, exec_rxByte_sync hq (by simp [hone]), rfl, by simp [hone]⟩
  case resyncWithoutBudget =>
    intro hq hpolicy hb hspent
    exact ⟨_, (exec_rxByte_seekAddr hq).trans (seekAddrByte_resync_spent hb hpolicy hspent), rfl, rfl, hspent⟩
  case lengthFirst =>
    intro hq hlen
    exact ⟨_, exec_rxByte_lenLo_invalid hq (by rwa [joinBytes_toNat, hiByte_toNat]), rfl, rfl, rfl⟩
  case startWithoutBudget =>
    intro h hb
    exact ⟨_, exec_rxStart_noBudget h hb, rfl, rfl⟩

/-- Settles O60: reset leaves `TX_IDLE` and `RX_IDLE`, where the equations of the two states apply. -/
theorem enabledAfterReset : Obligations.EnabledAfterReset := by
  intro cfg b s
  have htx : s.txState = .idle := rfl
  have hrx : s.rxState = .idle ∨ s.rxState = .done := .inl rfl
  exact ⟨⟨_, exec_txBegin htx⟩, ⟨_, rfl⟩, ⟨_, rfl⟩, exists_next_exec_rxStart hrx, exec_txPush_refused_idle htx,
    exec_txEnd_refused htx, exec_sourceOp_refused (.byte b) hrx, exec_sourceOp_refused .underrun hrx,
    exec_sourceOp_refused (.chfault b) hrx⟩

end Sys2Proof.Machine

/-! # The waiting block (70_reset_and_hazards.md)

The port's answer to an empty list of offered words decides the step: there is no word to decode or to refuse. -/

namespace Sys2Proof.Machine

/-- The block waits while nothing is offered (70_reset_and_hazards.md R188, R190; assumption 4). -/
theorem step_waiting {s : State} (hp : s.port = []) : step s = .next s := by
  rw [step, readPort_nil hp]
  rfl

/-- Settles O8: the port answers that it is waiting, and then `step` keeps the state. -/
theorem emptyPortWaits : Obligations.EmptyPortWaits :=
  fun _ hp => step_waiting hp

end Sys2Proof.Machine
